-- ==== Sys2Proof/Word.lean ====
section
/-! DEFINITION. The widths of the block's values (spec/00_scope.md R4, R5) and the 4-byte mask key (R24). -/

namespace Sys2Proof

/-- An 8-bit value: a buffer byte, a header byte, a register number, a command word. Bit 0 is the least
significant bit (R5). -/
abbrev Byte := BitVec 8

/-- A 64-bit value: `LEN_W`, `CUR_W` and `OFF_W` of R4. -/
abbrev Word := BitVec 64

/-- The mask key, `MK[0]` to `MK[3]`: `MK[k]` is the key byte at wire offset k (R24, R55). -/
structure Key where
  k0 : Byte
  k1 : Byte
  k2 : Byte
  k3 : Byte
  deriving DecidableEq, Repr, Inhabited

end Sys2Proof
end

