-- ==== Sys2Proof/Syntax.lean ====
section
/-! DEFINITION. The instructions of spec/opcode_table.json, one constructor a row: the four command words (format CMD8,
R90) and the six named frame opcodes (format WSHDR_B0, R80 to R85). -/

namespace Sys2Proof

/-- A row of the opcode table. A command has no operand field (R89: every operand is a register). A frame opcode is header
byte 0 of a frame, so it carries the other four bits of that byte: FIN, RSV1, RSV2, RSV3 (R71). -/
inductive Instr where
  | encode
  | decode
  | maskSrc
  | maskDst
  | continuation (fin rsv1 rsv2 rsv3 : Bool)
  | text (fin rsv1 rsv2 rsv3 : Bool)
  | binary (fin rsv1 rsv2 rsv3 : Bool)
  | close (fin rsv1 rsv2 rsv3 : Bool)
  | ping (fin rsv1 rsv2 rsv3 : Bool)
  | pong (fin rsv1 rsv2 rsv3 : Bool)
  deriving DecidableEq, Repr

end Sys2Proof
end

