-- ==== Sys2Proof/Decode.lean ====
section
/-! DEFINITION. The decoder of the two opcode spaces (R71, R79 to R86, R89 to R91), total on every byte and rejecting by
name, and the encoder. Frame headers as byte sequences are Machine/Operands.lean's. -/

namespace Sys2Proof

/-- Why a byte decodes to no instruction. -/
inductive DecodeError where
  /-- A command word with bits 7:5 not 000 (R91). -/
  | reservedBits
  /-- A command word with OP = 0x0 or OP in 0x4 to 0xF (R91). -/
  | reservedOp
  /-- BSEL = 1 with ENCODE or DECODE (R91). -/
  | bufferSelect
  /-- A header byte 0 whose opcode the spec does not name (R86). -/
  | unnamedOpcode
  /-- A register that takes neither a command word nor header byte 0. -/
  | notAnInstructionPort
  /-- No byte to decode. -/
  | noByte
  deriving DecidableEq, Repr

/-- OP, bits 3:0 of a command word (R89). -/
def opField (w : Byte) : BitVec 4 := w.extractLsb' 0 4

/-- BSEL, bit 4 of a command word (R89). -/
def bselField (w : Byte) : Bool := w.getLsbD 4

/-- Bits 7:5 of a command word, which must be 000 (R89). -/
def reservedField (w : Byte) : BitVec 3 := w.extractLsb' 5 3

/-- OPCODE, bits 3:0 of header byte 0 (R71). -/
def opcodeField (b : Byte) : BitVec 4 := b.extractLsb' 0 4

/-- FIN, bit 7 of header byte 0 (R71). -/
def finField (b : Byte) : Bool := b.getLsbD 7

/-- RSV1, bit 6 of header byte 0 (R71). -/
def rsv1Field (b : Byte) : Bool := b.getLsbD 6

/-- RSV2, bit 5 of header byte 0 (R71). -/
def rsv2Field (b : Byte) : Bool := b.getLsbD 5

/-- RSV3, bit 4 of header byte 0 (R71). -/
def rsv3Field (b : Byte) : Bool := b.getLsbD 4

/-- A word written to CMD: exactly four are legal (R90), every other is reserved (R91). -/
def decodeCommand (w : Byte) : Except DecodeError Instr :=
  if reservedField w ≠ 0 then .error .reservedBits
  else if opField w = 0x1 then (if bselField w then .error .bufferSelect else .ok .encode)
  else if opField w = 0x2 then (if bselField w then .error .bufferSelect else .ok .decode)
  else if opField w = 0x3 then (if bselField w then .ok .maskDst else .ok .maskSrc)
  else .error .reservedOp

/-- Header byte 0 of a frame: the six named opcodes (R80 to R85). The other ten name no instruction (R86), though the block
takes the byte all the same. -/
def decodeHeader0 (b : Byte) : Except DecodeError Instr :=
  let fin := finField b
  let rsv1 := rsv1Field b
  let rsv2 := rsv2Field b
  let rsv3 := rsv3Field b
  if opcodeField b = 0x0 then .ok (.continuation fin rsv1 rsv2 rsv3)
  else if opcodeField b = 0x1 then .ok (.text fin rsv1 rsv2 rsv3)
  else if opcodeField b = 0x2 then .ok (.binary fin rsv1 rsv2 rsv3)
  else if opcodeField b = 0x8 then .ok (.close fin rsv1 rsv2 rsv3)
  else if opcodeField b = 0x9 then .ok (.ping fin rsv1 rsv2 rsv3)
  else if opcodeField b = 0xA then .ok (.pong fin rsv1 rsv2 rsv3)
  else .error .unnamedOpcode

/-- The register number of CMD (R34), the port of command words. -/
def commandPort : Byte := 0x00

/-- The register number of FRAME_H0 (R34), the port of header byte 0. -/
def headerPort : Byte := 0x08

/-- The instruction a host write of `value` to register `port` stands for. A host action is the pair (register number,
value) (R94), and the register tells the two opcode spaces apart. -/
def decodePair (port value : Byte) : Except DecodeError Instr :=
  if port = commandPort then decodeCommand value
  else if port = headerPort then decodeHeader0 value
  else .error .notAnInstructionPort

/-- The instruction at the head of a byte list that comes without its register, and the rest of the list. A byte that is a
legal command word is that command; any other is read as header byte 0. DESIGN CHOICE (log entry 2): the bytes 0x01, 0x02
and 0x03 are command words and header bytes both, and only the register tells them apart. -/
def decodeBytes : List Byte → Except DecodeError (Instr × List Byte)
  | [] => .error .noByte
  | b :: rest =>
    match decodeCommand b with
    | .ok i => .ok (i, rest)
    | .error _ =>
      match decodeHeader0 b with
      | .ok i => .ok (i, rest)
      | .error e => .error e

/-- The one byte of an instruction whose bits are w, of which the table numbers nbits. -/
def tableByte (nbits w : Nat) : Byte := BitVec.ofNat 8 (w % 2 ^ nbits)

/-- The instruction the decoder reads from an instruction of the opcode table. Every row is one byte. -/
def decodeTableWord (nbits w : Nat) : Option Instr :=
  match decodeBytes [tableByte nbits w] with
  | .ok (i, _) => some i
  | .error _ => none

/-- Header byte 0 from its bits: FIN ++ RSV1 ++ RSV2 ++ RSV3 ++ OPCODE (R71). -/
def header0Byte (fin rsv1 rsv2 rsv3 : Bool) (opcode : BitVec 4) : Byte :=
  BitVec.ofBool fin ++ BitVec.ofBool rsv1 ++ BitVec.ofBool rsv2 ++ BitVec.ofBool rsv3 ++ opcode

/-- The byte of an instruction: the command words of R90, and header byte 0 of R80 to R85. -/
def encode : Instr → Byte
  | .encode => 0x01
  | .decode => 0x02
  | .maskSrc => 0x03
  | .maskDst => 0x13
  | .continuation fin rsv1 rsv2 rsv3 => header0Byte fin rsv1 rsv2 rsv3 0x0
  | .text fin rsv1 rsv2 rsv3 => header0Byte fin rsv1 rsv2 rsv3 0x1
  | .binary fin rsv1 rsv2 rsv3 => header0Byte fin rsv1 rsv2 rsv3 0x2
  | .close fin rsv1 rsv2 rsv3 => header0Byte fin rsv1 rsv2 rsv3 0x8
  | .ping fin rsv1 rsv2 rsv3 => header0Byte fin rsv1 rsv2 rsv3 0x9
  | .pong fin rsv1 rsv2 rsv3 => header0Byte fin rsv1 rsv2 rsv3 0xA

/-- The register an instruction's byte is written to: CMD for a command (R33), FRAME_H0 for header byte 0 (R71). -/
def encodePort : Instr → Byte
  | .encode => commandPort
  | .decode => commandPort
  | .maskSrc => commandPort
  | .maskDst => commandPort
  | .continuation _ _ _ _ => headerPort
  | .text _ _ _ _ => headerPort
  | .binary _ _ _ _ => headerPort
  | .close _ _ _ _ => headerPort
  | .ping _ _ _ _ => headerPort
  | .pong _ _ _ _ => headerPort

end Sys2Proof
end

