-- ==== Sys2Proof/Machine/Flags.lean ====
section
/-! DEFINITION. The flag fields of header byte 1 (R22, R72), the STATUS codes (R141), the FAULT bits (R32), and the control
and data frame classes (R87). The flags of header byte 0 are the fields of Sys2Proof/Decode.lean. -/

namespace Sys2Proof.Machine

/-- MASKF, bit 7 of header byte 1 (R72). -/
def maskFlag (b1 : Byte) : Bool := b1.getLsbD 7

/-- LENIND, bits 6:0 of header byte 1 (R72). -/
def lenIndField (b1 : Byte) : BitVec 7 := b1.extractLsb' 0 7

/-- Header byte 1 with its length indicator replaced: `FRAME_H1[7] ++ ind` (R102). -/
def withLenInd (b1 : Byte) (ind : BitVec 7) : Byte := BitVec.ofBool (maskFlag b1) ++ ind

/-- STATUS 0, OK (R141). -/
def statusOk : Byte := 0x00

/-- STATUS -1, InsufficientInput (R141, R142). -/
def statusInsufficientInput : Byte := 0xFF

/-- STATUS -2, InsufficientOutputSpace (R141, R143). -/
def statusInsufficientOutputSpace : Byte := 0xFE

/-- STATUS -3, UnsupportedVersion: reserved, never raised by the block (R144). -/
def statusUnsupportedVersion : Byte := 0xFD

/-- STATUS -4, MalformedInput: reserved, never raised by the block (R145). -/
def statusMalformedInput : Byte := 0xFC

/-- STATUS as the number it is read as, in two's complement (R30). -/
def statusValue (status : Byte) : Int := status.toInt

/-- FAULT bit 0, RANGE (R32, R146). -/
def faultRange : Byte := 0x01

/-- FAULT bit 1, ILLCMD (R32, R147). -/
def faultIllCmd : Byte := 0x02

/-- The classes of frame (R87). -/
inductive FrameClass where
  | data
  | control
  deriving DecidableEq, Repr

/-- The class of an opcode (R87): the unnamed opcodes have none (R86). No command depends on it. -/
def frameClass (opcode : BitVec 4) : Option FrameClass :=
  if opcode = 0x0 then some .data
  else if opcode = 0x1 then some .data
  else if opcode = 0x2 then some .data
  else if opcode = 0x8 then some .control
  else if opcode = 0x9 then some .control
  else if opcode = 0xA then some .control
  else none

end Sys2Proof.Machine
end

