-- ==== Sys2Proof/Machine/Operands.lean ====
section
/-! DEFINITION. Operand assembly (R92): the frame header wire format (R70 to R78), byte order (R53 to R55) and the mask key
lane (R121). -/

namespace Sys2Proof.Machine

/-- `BE16(v)`, most significant byte first (R6). -/
def be16 (v : BitVec 16) : List Byte :=
  [v.extractLsb' 8 8, v.extractLsb' 0 8]

/-- `BE64(v)`, most significant byte first (R6). -/
def be64 (v : Word) : List Byte :=
  [v.extractLsb' 56 8, v.extractLsb' 48 8, v.extractLsb' 40 8, v.extractLsb' 32 8,
   v.extractLsb' 24 8, v.extractLsb' 16 8, v.extractLsb' 8 8, v.extractLsb' 0 8]

/-- The number a byte sequence spells, most significant byte first: the concatenation of its bytes (R6, R54). -/
def beNat (bs : List Byte) : Nat :=
  bs.foldl (fun acc b => acc * 256 + b.toNat) 0

/-- `ext(ind)`: how many extended length bytes an indicator announces (R73). -/
def ext (ind : BitVec 7) : Nat :=
  if ind = 126 then 2 else if ind = 127 then 8 else 0

/-- `hsize(b1)`: the header size that header byte 1 announces (R74). -/
def hsize (b1 : Byte) : Nat :=
  2 + ext (lenIndField b1) + 4 * (if maskFlag b1 then 1 else 0)

/-- `L` from the indicator and the extended length bytes (R75). -/
def assembleLen (ind : BitVec 7) (extended : List Byte) : Word :=
  if ind = 126 then BitVec.ofNat 64 (beNat extended)
  else if ind = 127 then BitVec.ofNat 64 (beNat extended)
  else ind.setWidth 64

/-- `lenind(L)`: the indicator of the shortest spelling of a length (R76). -/
def lenind (len : Word) : BitVec 7 :=
  if len.toNat < 126 then len.extractLsb' 0 7 else if len.toNat < 65536 then 126 else 127

/-- `extbytes(L)`: the extended length bytes of the shortest spelling of a length (R76). -/
def extBytes (len : Word) : List Byte :=
  if len.toNat < 126 then []
  else if len.toNat < 65536 then be16 (len.extractLsb' 0 16)
  else be64 len

/-- The key bytes in wire order (R55, R77). -/
def keyBytes (key : Key) : List Byte :=
  [key.k0, key.k1, key.k2, key.k3]

/-- `EncodeBytes(h0, h1, L, MK)` (R101). -/
def encodeBytes (h0 h1 : Byte) (len : Word) (key : Key) : List Byte :=
  [h0, h1] ++ extBytes len ++ (if maskFlag h1 then keyBytes key else [])

/-- `MK[k]` for a lane k (R55); the lane is taken mod 4. -/
def keyLane (key : Key) (lane : Nat) : Byte :=
  if lane % 4 = 0 then key.k0 else if lane % 4 = 1 then key.k1 else if lane % 4 = 2 then key.k2 else key.k3

/-- `lane(off, i) = (off + i) mod 4`, over the integers (R121). -/
def lane (off i : Nat) : Nat := (off + i) % 4

/-- Slice bytes XORed with the rolling key, the first of them at payload offset `off` (R120, R121). -/
def xorSlice (key : Key) (off : Nat) : List Byte → List Byte
  | [] => []
  | b :: bs => (b ^^^ keyLane key (lane off 0)) :: xorSlice key (off + 1) bs

end Sys2Proof.Machine
end

