-- ==== Sys2Proof/Machine/RegMap.lean ====
section
/-! DEFINITION. The register map (R34): the twenty assigned registers, their numbers, widths and host access rights. -/

namespace Sys2Proof.Machine

/-- The registers of R34, by name. -/
inductive Reg where
  | cmd | status | fault | resWritten | resConsumed | resMasked
  | frameH0 | frameH1 | frameLen | frameMk0 | frameMk1 | frameMk2 | frameMk3
  | srcLen | rcur | cap | wcur | mStart | mN | mOff
  deriving DecidableEq, Repr

/-- All assigned registers, in the order of R34. -/
def allRegs : List Reg :=
  [.cmd, .status, .fault, .resWritten, .resConsumed, .resMasked,
   .frameH0, .frameH1, .frameLen, .frameMk0, .frameMk1, .frameMk2, .frameMk3,
   .srcLen, .rcur, .cap, .wcur, .mStart, .mN, .mOff]

/-- The number column of R34. -/
def regNumber : Reg → Byte
  | .cmd => 0x00
  | .status => 0x01
  | .fault => 0x02
  | .resWritten => 0x03
  | .resConsumed => 0x04
  | .resMasked => 0x05
  | .frameH0 => 0x08
  | .frameH1 => 0x09
  | .frameLen => 0x0A
  | .frameMk0 => 0x0B
  | .frameMk1 => 0x0C
  | .frameMk2 => 0x0D
  | .frameMk3 => 0x0E
  | .srcLen => 0x10
  | .rcur => 0x11
  | .cap => 0x12
  | .wcur => 0x13
  | .mStart => 0x14
  | .mN => 0x15
  | .mOff => 0x16

/-- The register a number names; `none` for the unassigned numbers 0x06, 0x07, 0x0F and 0x17 to 0xFF (R34). -/
def regOfNumber (n : Byte) : Option Reg :=
  allRegs.find? (fun r => regNumber r == n)

/-- The width column of R34, in bits. -/
def regWidth : Reg → Nat
  | .cmd | .status | .fault => 8
  | .frameH0 | .frameH1 | .frameMk0 | .frameMk1 | .frameMk2 | .frameMk3 => 8
  | .resWritten | .resConsumed | .resMasked => 64
  | .frameLen | .srcLen | .rcur | .cap | .wcur | .mStart | .mN | .mOff => 64

/-- "R" or "RW" in the host column of R34: every register but CMD. -/
def hostReadable : Reg → Bool
  | .cmd => false
  | .status | .fault | .resWritten | .resConsumed | .resMasked => true
  | .frameH0 | .frameH1 | .frameLen | .frameMk0 | .frameMk1 | .frameMk2 | .frameMk3 => true
  | .srcLen | .rcur | .cap | .wcur | .mStart | .mN | .mOff => true

/-- "W" or "RW" in the host column of R34: CMD and every register the block does not keep for its results. -/
def hostWritable : Reg → Bool
  | .cmd => true
  | .status | .fault | .resWritten | .resConsumed | .resMasked => false
  | .frameH0 | .frameH1 | .frameLen | .frameMk0 | .frameMk1 | .frameMk2 | .frameMk3 => true
  | .srcLen | .rcur | .cap | .wcur | .mStart | .mN | .mOff => true

end Sys2Proof.Machine
end

