-- ==== Sys2Proof/Config.lean ====
section
/-! DEFINITION. What an implementation fixes (the buffer sizes) and what the spec leaves to a draw. Every constant here
has no body: nothing can be proved of its value, so a theorem that mentions one holds for every value of it. -/

namespace Sys2Proof

/-- `SRC_MAX`: the size in bytes of `SRC`, an open parameter of at most 2^64 - 1 (R4, D8). `State.reset` carries it.
DESIGN CHOICE (log entry 4), safe. -/
opaque Config.srcMax : Word

/-- `DST_MAX`: the size in bytes of `DST`, an open parameter of at most 2^64 - 1 (R4, D8). `State.reset` carries it.
DESIGN CHOICE (log entry 4), safe. -/
opaque Config.dstMax : Word

/-- The draw of R103 at the n-th drawn value: whether a failed ENCODE leaves the new indicator in `FRAME_H1[6:0]`
(`true`) or the old bits (`false`). DESIGN CHOICE (log entry 5), safe. -/
opaque Config.failedEncodeFills : Nat → Bool

/-- The draw of R106 at the n-th drawn value: the key a DECODE of an unmasked header leaves, which may depend on the key
held before. DESIGN CHOICE (log entry 6), safe. -/
opaque Config.drawnKey : Nat → Key → Key

end Sys2Proof
end

