-- ==== Sys2Proof/Machine/HostAction.lean ====
section
/-! DEFINITION. The types of the host's side of the block: the two buffers (R25, R27) and the host actions (R94, R95, R183). -/

namespace Sys2Proof.Machine

/-- The two byte memories of the block (R50). BSEL = 0 names `src`, BSEL = 1 names `dst` (R89). -/
inductive Buf where
  | src
  | dst
  deriving DecidableEq, Repr

/-- One host action: a line of a host program (R94), a host read (R183), or a pseudo-instruction (R95). A command mnemonic
is the write of its word to CMD (R93), so it is a `set` of register 0x00. Values and addresses are numbers as the host gives
them, so that one that fits no register is refused and not truncated. -/
inductive HostAction where
  /-- `SET <reg>, <value>`, encoded as the pair (register number, value). -/
  | set (reg : Byte) (value : Nat)
  /-- A host read of a register (R183). -/
  | get (reg : Byte)
  /-- `POKE <buf>[<addr>], <b0> <b1> ...`. -/
  | poke (buf : Buf) (addr : Nat) (bytes : List Byte)
  /-- A host read of `n` buffer bytes from `addr` up (R183). -/
  | peek (buf : Buf) (addr n : Nat)
  /-- `EXPECT <reg> = <value>`; for STATUS the value is the 8-bit pattern (log entry 15). -/
  | expectReg (reg : Byte) (value : Nat)
  /-- `EXPECT <buf>[addr..addr+n) = <bytes>`. -/
  | expectBuf (buf : Buf) (addr : Nat) (bytes : List Byte)
  /-- `RESET` (R170). -/
  | reset
  /-- `FEED <b0> ... <bn-1>`. -/
  | feed (bytes : List Byte)
  /-- `SKIP <n>`. -/
  | skip (n : Nat)
  /-- `DRAIN`. -/
  | drain
  /-- `MASKAT <buf>, <start>, <n>, <off>`. -/
  | maskAt (buf : Buf) (start n off : Nat)
  deriving DecidableEq, Repr

/-- What a host action gives back to the host (R183): the value of a register, the bytes of a buffer, or the outcome of an
EXPECT. -/
inductive Reply where
  | value (v : Word)
  | bytes (bs : List Byte)
  | checked (holds : Bool)
  deriving DecidableEq, Repr

end Sys2Proof.Machine
end

