-- ==== Sys2Proof/Machine/State.lean ====
section
/-! DEFINITION. The state of the block (R20), as plain data; the reasons a step can stop; the state after reset (R39, R170). -/

namespace Sys2Proof.Machine

/-- The contents of a buffer: (address, byte) pairs with addresses strictly rising. An address that is not listed holds no
value (R40), so there is no value an entry may not have. -/
abbrev Memory := List Host.Cell

/-- Why the model stops with a fault. These are model faults, not bits of the FAULT register (R140). -/
inductive Fault where
  /-- Raised by DECODE, by MASK with MASKF = 1, by a host read of a buffer and by EXPECT: the byte at this address of this
  buffer holds no value (R40). Safe: the hardware goes on with an unspecified value. -/
  | unwrittenByte (buf : Buf) (addr : Nat)
  /-- Raised by POKE, a host read of a buffer and EXPECT: the buffer has no byte at this address (R25, R27, R50). Safe: the
  spec gives such an access no effect. -/
  | noSuchByte (buf : Buf) (addr : Nat)
  deriving DecidableEq, Repr

/-- Why the model gives a host action no meaning (R35, R94; "every refusal errs toward unprovable"). -/
inductive Refusal where
  /-- An instruction that has no meaning yet; raised by no arm of `exec`. Safe. -/
  | notModelled (mnemonic : String)
  /-- A host access to an unassigned register number (R35). Safe. -/
  | unassignedRegister (reg : Byte)
  /-- A host write of STATUS, FAULT, RES_WRITTEN, RES_CONSUMED or RES_MASKED (R35). Safe. -/
  | readOnlyRegister (reg : Byte)
  /-- A host read of CMD (R33, R35). Safe. -/
  | writeOnlyRegister (reg : Byte)
  /-- A host write whose value does not fit the register's width (R35, R94). Safe. -/
  | valueTooWide (reg : Byte) (value : Nat)
  deriving DecidableEq, Repr

/-- The state: the registers and buffers of R20, each under the spec's name, then the model's own fields. CMD stores nothing
(R33), so it has no field. -/
structure State where
  /-- `FRAME_H0`, header byte 0 (R21). -/
  frameH0 : Byte
  /-- `FRAME_H1`, header byte 1 (R22). -/
  frameH1 : Byte
  /-- `FRAME_LEN`, the payload length (R23). -/
  frameLen : Word
  /-- `FRAME_MK0` to `FRAME_MK3`, the mask key (R24). -/
  key : Key
  /-- `SRC` (R25). -/
  src : Memory
  /-- `SRC_LEN` (R25). -/
  srcLen : Word
  /-- `RCUR`, the read cursor into `SRC` (R26). -/
  rcur : Word
  /-- `DST` (R27). -/
  dst : Memory
  /-- `CAP`, the capacity (R27). -/
  cap : Word
  /-- `WCUR`, the write cursor into `DST` (R28). -/
  wcur : Word
  /-- `M_START` (R29). -/
  mStart : Word
  /-- `M_N` (R29). -/
  mN : Word
  /-- `M_OFF` (R29). -/
  mOff : Word
  /-- `STATUS` (R30). -/
  status : Byte
  /-- `RES_WRITTEN` (R31). -/
  resWritten : Word
  /-- `RES_CONSUMED` (R31). -/
  resConsumed : Word
  /-- `RES_MASKED` (R31). -/
  resMasked : Word
  /-- `FAULT` (R32). -/
  fault : Byte
  /-- The model's own: the parameter `SRC_MAX` (R4), which no step changes. -/
  srcMax : Word
  /-- The model's own: the parameter `DST_MAX` (R4), which no step changes. -/
  dstMax : Word
  /-- The model's own: how many values have been drawn; the argument of the free values of Config. -/
  draws : Nat
  /-- The model's own: what the host does next, oldest first (R37, R94, R184). -/
  actions : List HostAction
  /-- The model's own: what host reads and checks gave back, newest first (R183). -/
  replies : List Reply
  deriving DecidableEq, Repr

/-- The machine right after reset (R34, R39, R40, R170, R171): every register zero, both buffers holding no value. The
buffer sizes are the implementation's (log entry 4); nothing drawn, no action waiting, no reply given (log entries 3, 7
and 10). -/
def State.reset : State where
  frameH0 := 0x00
  frameH1 := 0x00
  frameLen := 0
  key := { k0 := 0x00, k1 := 0x00, k2 := 0x00, k3 := 0x00 }
  src := []
  srcLen := 0
  rcur := 0
  dst := []
  cap := 0
  wcur := 0
  mStart := 0
  mN := 0
  mOff := 0
  status := 0x00
  resWritten := 0
  resConsumed := 0
  resMasked := 0
  fault := 0x00
  srcMax := Config.srcMax
  dstMax := Config.dstMax
  draws := 0
  actions := []
  replies := []

end Sys2Proof.Machine
end

