-- ==== Sys2Proof/Machine/Ops.lean ====
section
/-! DEFINITION. The named operations over buffers and registers: `MemRead` and `MemWrite` (R7), one register read and one
register write (R34), the result and fault registers (R30 to R32), the range checks (R146), reset (R170), and the internal
primitives APPEND and CONSUME (R130, R131). -/

namespace Sys2Proof.Machine

/-! ### Buffers -/

/-- The byte of a buffer at an address; `none` where it holds no value (R40). -/
def memRead : Memory → Nat → Option Byte
  | [], _ => none
  | (k, v) :: m, a => if k = a then some v else memRead m a

/-- Writes one byte, keeping the addresses strictly rising. -/
def memWrite : Memory → Nat → Byte → Memory
  | [], a, b => [(a, b)]
  | (k, v) :: m, a, b =>
    if a < k then (a, b) :: (k, v) :: m
    else if a = k then (a, b) :: m
    else (k, v) :: memWrite m a b

/-- The canonical form of a buffer: addresses strictly rising. -/
def Memory.wf : Memory → Bool
  | [] => true
  | [_] => true
  | (k, _) :: (k', v') :: m => decide (k < k') && Memory.wf ((k', v') :: m)

/-- The byte of a named buffer, or the model fault of R40. -/
def memReadByte (buf : Buf) (m : Memory) (a : Nat) : Except Fault Byte :=
  match memRead m a with
  | some b => .ok b
  | none => .error (.unwrittenByte buf a)

/-- `MemRead(B, a, n)` (R7): the bytes from `a` up, or the model fault of the first that holds no value. -/
def memReadBytes (buf : Buf) (m : Memory) (a : Nat) : Nat → Except Fault (List Byte)
  | 0 => .ok []
  | n + 1 =>
    match memReadByte buf m a with
    | .error f => .error f
    | .ok b =>
      match memReadBytes buf m (a + 1) n with
      | .error f => .error f
      | .ok bs => .ok (b :: bs)

/-- `MemWrite(B, a, n, s)` (R7): the bytes from `a` up. -/
def memWriteBytes (m : Memory) (a : Nat) : List Byte → Memory
  | [] => m
  | b :: bs => memWriteBytes (memWrite m a b) (a + 1) bs

/-- Every byte at `a` to `a + n - 1` holds a value. -/
def memWritten (m : Memory) (a n : Nat) : Prop :=
  ∀ x, a ≤ x → x < a + n → memRead m x ≠ none

/-- The contents of a buffer. -/
def bufMem (buf : Buf) (s : State) : Memory :=
  match buf with
  | .src => s.src
  | .dst => s.dst

/-- The limit of a buffer: `SRC_LEN` or `CAP` (R51, R52). -/
def bufLimit (buf : Buf) (s : State) : Word :=
  match buf with
  | .src => s.srcLen
  | .dst => s.cap

/-- The size of a buffer: `SRC_MAX` or `DST_MAX` (R25, R27). -/
def bufSize (buf : Buf) (s : State) : Word :=
  match buf with
  | .src => s.srcMax
  | .dst => s.dstMax

/-- Replaces the contents of a buffer. -/
def setBufMem (buf : Buf) (m : Memory) (s : State) : State :=
  match buf with
  | .src => { s with src := m }
  | .dst => { s with dst := m }

/-! ### Registers -/

/-- The value of a register as the host reads it (R34, R56). STATUS is given as its 8-bit pattern, zero-extended, so that -1
reads as 0xFF; `statusValue` is the two's-complement number of R30. DESIGN CHOICE (log entry 15), safe. CMD holds no value (R33); the host's read of it is refused
before this is asked. -/
def readReg (r : Reg) (s : State) : Word :=
  match r with
  | .cmd => 0
  | .status => s.status.setWidth 64
  | .fault => s.fault.setWidth 64
  | .resWritten => s.resWritten
  | .resConsumed => s.resConsumed
  | .resMasked => s.resMasked
  | .frameH0 => s.frameH0.setWidth 64
  | .frameH1 => s.frameH1.setWidth 64
  | .frameLen => s.frameLen
  | .frameMk0 => s.key.k0.setWidth 64
  | .frameMk1 => s.key.k1.setWidth 64
  | .frameMk2 => s.key.k2.setWidth 64
  | .frameMk3 => s.key.k3.setWidth 64
  | .srcLen => s.srcLen
  | .rcur => s.rcur
  | .cap => s.cap
  | .wcur => s.wcur
  | .mStart => s.mStart
  | .mN => s.mN
  | .mOff => s.mOff

/-- Header byte 0 enters `FRAME_H0` as it stands: every bit is carried and none is checked (R21, R79, R86, R88). -/
def loadHeader0 (b0 : Byte) (s : State) : State :=
  { s with frameH0 := b0 }

/-- Stores a value in a read-write register, the whole register at once (R35). Nothing is stored in CMD (R33) or in a
read-only register (R34). -/
def writeReg (r : Reg) (v : Word) (s : State) : State :=
  match r with
  | .cmd => s
  | .status => s
  | .fault => s
  | .resWritten => s
  | .resConsumed => s
  | .resMasked => s
  | .frameH0 => loadHeader0 (v.setWidth 8) s
  | .frameH1 => { s with frameH1 := v.setWidth 8 }
  | .frameLen => { s with frameLen := v }
  | .frameMk0 => { s with key := { s.key with k0 := v.setWidth 8 } }
  | .frameMk1 => { s with key := { s.key with k1 := v.setWidth 8 } }
  | .frameMk2 => { s with key := { s.key with k2 := v.setWidth 8 } }
  | .frameMk3 => { s with key := { s.key with k3 := v.setWidth 8 } }
  | .srcLen => { s with srcLen := v }
  | .rcur => { s with rcur := v }
  | .cap => { s with cap := v }
  | .wcur => { s with wcur := v }
  | .mStart => { s with mStart := v }
  | .mN => { s with mN := v }
  | .mOff => { s with mOff := v }

/-- Writes STATUS and all three RES registers, as every executed command does (R30, R31). -/
def setResult (status : Byte) (written consumed masked : Word) (s : State) : State :=
  { s with status := status, resWritten := written, resConsumed := consumed, resMasked := masked }

/-- DECODE's writes of the FRAME registers (R104). -/
def commitFrame (b0 b1 : Byte) (len : Word) (key : Key) (s : State) : State :=
  { loadHeader0 b0 s with frameH1 := b1, frameLen := len, key := key }

/-! ### Faults and reset -/

/-- A FAULT bit is set, so the block executes no command (R32, R148). -/
def halted (s : State) : Bool := s.fault != 0

/-- `raise Fault(F)` (R7, R146, R147): sets one bit of FAULT, so that the block is halted, and changes nothing else. No state
is saved and control goes nowhere (R150). -/
def raiseFault (bit : Byte) (s : State) : State :=
  { s with fault := s.fault ||| bit }

/-- The way out of a halt, and the only one (R151, R170): every register at its reset value and both buffers holding no
value. The model's own fields (sizes, draws, waiting actions, replies) are the host's side and stay (log entry 13). -/
def resetBlock (s : State) : State :=
  { State.reset with
    srcMax := s.srcMax, dstMax := s.dstMax, draws := s.draws, actions := s.actions, replies := s.replies }

/-- The range condition of R146 for a cursor: it lies above its limit, or the limit above the buffer's size. -/
def cursorOutside (cursor limit size : Word) : Bool :=
  decide (limit.toNat < cursor.toNat) || decide (size.toNat < limit.toNat)

/-- The range condition of R146 for a MASK slice; the sum is over the integers. -/
def sliceOutside (start n limit size : Word) : Bool :=
  decide (limit.toNat < start.toNat + n.toNat) || decide (size.toNat < limit.toNat)

/-! ### The internal primitives -/

/-- How an internal primitive ends: with a result, short (the condition it detects, R132), or with its operands outside
their range, on which the caller faults (R130, R131). -/
inductive Primitive (α : Type) where
  | ok (result : α)
  | short
  | outside

/-- `APPEND(D, w, c, s)` (R130): the buffer and the new cursor. -/
def append (d : Memory) (w c : Nat) (s : List Byte) : Primitive (Memory × Nat) :=
  if c < w then .outside
  else if s.length ≤ c - w then .ok (memWriteBytes d w s, w + s.length)
  else .short

/-- `CONSUME(k, S, r, l)` (R131): the bytes and the new cursor. Reading a byte that holds no value is the model fault of R40,
and nothing is read when the input is short. -/
def consume (k : Nat) (m : Memory) (r l : Nat) : Except Fault (Primitive (List Byte × Nat)) :=
  if l < r then .ok .outside
  else if k ≤ l - r then
    match memReadBytes .src m r k with
    | .error f => .error f
    | .ok bs => .ok (.ok (bs, r + k))
  else .ok .short

end Sys2Proof.Machine
end

