-- ==== Sys2Proof/Machine/Codec.lean ====
section
/-! DEFINITION. The frame codec: ENCODE (R100 to R103) and DECODE (R104 to R106), and the chains of internal primitives the
two are built from (R110, R134). -/

namespace Sys2Proof.Machine

/-! ### ENCODE -/

/-- Header byte 1 as ENCODE writes it: MASKF kept, the indicator of FRAME_LEN in bits 6:0 (R102). -/
def encodedH1 (s : State) : Byte := withLenInd s.frameH1 (lenind s.frameLen)

/-- The header ENCODE writes (R100, R101). -/
def encodedHeader (s : State) : List Byte :=
  encodeBytes s.frameH0 (encodedH1 s) s.frameLen s.key

/-- ENCODE's commit on success: `dst` is the buffer with the header of `n` bytes in it (R100). -/
def encodeCommit (dst : Memory) (n : Nat) (s : State) : State :=
  setResult statusOk (BitVec.ofNat 64 n) 0 0
    { s with dst := dst, wcur := BitVec.ofNat 64 (s.wcur.toNat + n), frameH1 := encodedH1 s }

/-- ENCODE's commit on InsufficientOutputSpace (R103): FRAME_H1[6:0] is drawn, old value or new indicator. -/
def encodeFail (s : State) : State :=
  let drawn := if Config.failedEncodeFills s.draws then encodedH1 s else s.frameH1
  setResult statusInsufficientOutputSpace 0 0 0 { s with frameH1 := drawn, draws := s.draws + 1 }

/-- ENCODE (R100). -/
def execEncode (s : State) : Host.Outcome State Fault Refusal :=
  if halted s then .next s
  else if cursorOutside s.wcur s.cap s.dstMax then .next (raiseFault faultRange s)
  else if s.cap.toNat - s.wcur.toNat < (encodedHeader s).length then .next (encodeFail s)
  else .next (encodeCommit (memWriteBytes s.dst s.wcur.toNat (encodedHeader s)) (encodedHeader s).length s)

/-! ### DECODE -/

/-- What DECODE finds at the read cursor: too few bytes, or a header, its key present when MASKF is set. -/
inductive HeaderRead where
  | short
  | header (b0 b1 : Byte) (len : Word) (key : Option Key)
  deriving DecidableEq, Repr

/-- The four key bytes at an address (R77). -/
def readKey (m : Memory) (a : Nat) : Except Fault Key :=
  match memReadByte .src m a, memReadByte .src m (a + 1), memReadByte .src m (a + 2), memReadByte .src m (a + 3) with
  | .ok k0, .ok k1, .ok k2, .ok k3 => .ok { k0 := k0, k1 := k1, k2 := k2, k3 := k3 }
  | .error f, _, _, _ => .error f
  | .ok _, .error f, _, _ => .error f
  | .ok _, .ok _, .error f, _ => .error f
  | .ok _, .ok _, .ok _, .error f => .error f

/-- The rest of a header whose first two bytes are read and which is known to be all there: the extended length (R75), then
the key when MASKF is set (R77). -/
def readRest (m : Memory) (p : Nat) (b0 b1 : Byte) : Except Fault HeaderRead :=
  match memReadBytes .src m (p + 2) (ext (lenIndField b1)) with
  | .error f => .error f
  | .ok extended =>
    let len := assembleLen (lenIndField b1) extended
    if maskFlag b1 then
      match readKey m (p + 2 + ext (lenIndField b1)) with
      | .error f => .error f
      | .ok key => .ok (.header b0 b1 len (some key))
    else .ok (.header b0 b1 len none)

/-- The frame header at address `p` with `avail` valid bytes from there on (R104): no byte at or above `p + avail` is read. -/
def readHeader (m : Memory) (p avail : Nat) : Except Fault HeaderRead :=
  if avail < 2 then .ok .short
  else
    match memReadByte .src m p with
    | .error f => .error f
    | .ok b0 =>
      match memReadByte .src m (p + 1) with
      | .error f => .error f
      | .ok b1 => if avail < hsize b1 then .ok .short else readRest m p b0 b1

/-- DECODE's commit on InsufficientInput (R105). -/
def decodeShort (s : State) : State :=
  setResult statusInsufficientInput 0 0 0 s

/-- DECODE's commit on success (R104): the key is the header's when MASKF is set and drawn otherwise (R106). -/
def decodeCommit (b0 b1 : Byte) (len : Word) (key : Option Key) (s : State) : State :=
  match key with
  | some k =>
    setResult statusOk 0 (BitVec.ofNat 64 (hsize b1)) 0
      { commitFrame b0 b1 len k s with rcur := BitVec.ofNat 64 (s.rcur.toNat + hsize b1) }
  | none =>
    setResult statusOk 0 (BitVec.ofNat 64 (hsize b1)) 0
      { commitFrame b0 b1 len (Config.drawnKey s.draws s.key) s with
        rcur := BitVec.ofNat 64 (s.rcur.toNat + hsize b1), draws := s.draws + 1 }

/-- DECODE's end, from what was found at the read cursor. -/
def decodeOutcome (found : Except Fault HeaderRead) (s : State) : Host.Outcome State Fault Refusal :=
  match found with
  | .error f => .fault f
  | .ok .short => .next (decodeShort s)
  | .ok (.header b0 b1 len key) => .next (decodeCommit b0 b1 len key s)

/-- DECODE (R104). -/
def execDecode (s : State) : Host.Outcome State Fault Refusal :=
  if halted s then .next s
  else if cursorOutside s.rcur s.srcLen s.srcMax then .next (raiseFault faultRange s)
  else decodeOutcome (readHeader s.src s.rcur.toNat (s.srcLen.toNat - s.rcur.toNat)) s

/-! ### The chains of primitives (R110, R134)

The document's construction of the two commands. No command runs these: they are what ENCODE and DECODE are checked
against. -/

/-- A chain of APPENDs on a local copy of the buffer and its cursor, ended by the first that does not succeed. -/
def appendChain (d : Memory) (w c : Nat) : List (List Byte) → Primitive (Memory × Nat)
  | [] => .ok (d, w)
  | part :: parts =>
    match append d w c part with
    | .ok (d', w') => appendChain d' w' c parts
    | .short => .short
    | .outside => .outside

/-- ENCODE as the APPEND of header bytes 0 and 1, then of the extended length, then of the key when MASKF is set. -/
def encodeByAppends (s : State) : Host.Outcome State Fault Refusal :=
  if halted s then .next s
  else if s.dstMax.toNat < s.cap.toNat then .next (raiseFault faultRange s)
  else
    let parts := [[s.frameH0, encodedH1 s], extBytes s.frameLen] ++
      (if maskFlag (encodedH1 s) then [keyBytes s.key] else [])
    match appendChain s.dst s.wcur.toNat s.cap.toNat parts with
    | .outside => .next (raiseFault faultRange s)
    | .short => .next (encodeFail s)
    | .ok (d, w) => .next (encodeCommit d (w - s.wcur.toNat) s)

/-- The CONSUME of the key bytes, the last link of DECODE's chain, on the cursor `r`. -/
def consumeKey (m : Memory) (r l : Nat) (b0 b1 : Byte) (len : Word) : Except Fault (Primitive HeaderRead) :=
  match consume 4 m r l with
  | .error f => .error f
  | .ok .outside => .ok .outside
  | .ok .short => .ok .short
  | .ok (.ok ([k0, k1, k2, k3], _)) =>
    .ok (.ok (.header b0 b1 len (some { k0 := k0, k1 := k1, k2 := k2, k3 := k3 })))
  | .ok (.ok (_, _)) => .ok .outside

/-- The CONSUME of the extended length bytes, and what follows it, on the cursor `r`. -/
def consumeRest (m : Memory) (r l : Nat) (b0 b1 : Byte) : Except Fault (Primitive HeaderRead) :=
  match consume (ext (lenIndField b1)) m r l with
  | .error f => .error f
  | .ok .outside => .ok .outside
  | .ok .short => .ok .short
  | .ok (.ok (extended, r')) =>
    let len := assembleLen (lenIndField b1) extended
    if maskFlag b1 then consumeKey m r' l b0 b1 len else .ok (.ok (.header b0 b1 len none))

/-- The whole chain of CONSUMEs of DECODE on a local copy of the read cursor. -/
def consumeHeader (m : Memory) (r l : Nat) : Except Fault (Primitive HeaderRead) :=
  match consume 2 m r l with
  | .error f => .error f
  | .ok .outside => .ok .outside
  | .ok .short => .ok .short
  | .ok (.ok ([b0, b1], r')) => consumeRest m r' l b0 b1
  | .ok (.ok (_, _)) => .ok .outside

/-- DECODE as the CONSUME of 2 bytes, then of the extended length bytes, then of the key when MASKF is set. -/
def decodeByConsumes (s : State) : Host.Outcome State Fault Refusal :=
  if halted s then .next s
  else if s.srcMax.toNat < s.srcLen.toNat then .next (raiseFault faultRange s)
  else
    match consumeHeader s.src s.rcur.toNat s.srcLen.toNat with
    | .error f => .fault f
    | .ok .outside => .next (raiseFault faultRange s)
    | .ok .short => .next (decodeShort s)
    | .ok (.ok found) => decodeOutcome (.ok found) s

end Sys2Proof.Machine
end

