-- ==== Sys2Proof/Machine/FrameOpcode.lean ====
section
/-! DEFINITION. The six named frame opcodes (R80 to R85). A frame opcode is header byte 0, which is the value of FRAME_H0
(R71). The block treats all opcodes alike (R79): the byte enters FRAME_H0 as it stands and is checked nowhere. So the effect
of each is that FRAME_H0 holds its byte (log entry 1, DEDUCED). A host write of FRAME_H0 runs one of these; DECODE stores
byte 0 by the same operation, `loadHeader0`. Host writes work while the block is halted (R148). -/

namespace Sys2Proof.Machine

/-- CONTINUATION, opcode 0x0 (R80). -/
def execContinuation (fin rsv1 rsv2 rsv3 : Bool) (s : State) : Host.Outcome State Fault Refusal :=
  .next (loadHeader0 (header0Byte fin rsv1 rsv2 rsv3 0x0) s)

/-- TEXT, opcode 0x1 (R81). -/
def execText (fin rsv1 rsv2 rsv3 : Bool) (s : State) : Host.Outcome State Fault Refusal :=
  .next (loadHeader0 (header0Byte fin rsv1 rsv2 rsv3 0x1) s)

/-- BINARY, opcode 0x2 (R82). -/
def execBinary (fin rsv1 rsv2 rsv3 : Bool) (s : State) : Host.Outcome State Fault Refusal :=
  .next (loadHeader0 (header0Byte fin rsv1 rsv2 rsv3 0x2) s)

/-- CLOSE, opcode 0x8 (R83). -/
def execClose (fin rsv1 rsv2 rsv3 : Bool) (s : State) : Host.Outcome State Fault Refusal :=
  .next (loadHeader0 (header0Byte fin rsv1 rsv2 rsv3 0x8) s)

/-- PING, opcode 0x9 (R84). -/
def execPing (fin rsv1 rsv2 rsv3 : Bool) (s : State) : Host.Outcome State Fault Refusal :=
  .next (loadHeader0 (header0Byte fin rsv1 rsv2 rsv3 0x9) s)

/-- PONG, opcode 0xA (R85). -/
def execPong (fin rsv1 rsv2 rsv3 : Bool) (s : State) : Host.Outcome State Fault Refusal :=
  .next (loadHeader0 (header0Byte fin rsv1 rsv2 rsv3 0xA) s)

end Sys2Proof.Machine
end

