-- ==== Sys2Proof/Machine/Masking.lean ====
section
/-! DEFINITION. The masking engine: MASK.SRC and MASK.DST (R120, R121, R126). -/

namespace Sys2Proof.Machine

/-- MASK's commit: STATUS OK and RES_MASKED = M_N, whether or not a byte was touched (R120). -/
def maskCommit (s : State) : State :=
  setResult statusOk 0 0 s.mN s

/-- MASK on the buffer that BSEL selects (R120). The bytes of the slice are read only when MASKF is set. -/
def maskSlice (buf : Buf) (s : State) : Host.Outcome State Fault Refusal :=
  if halted s then .next s
  else if sliceOutside s.mStart s.mN (bufLimit buf s) (bufSize buf s) then .next (raiseFault faultRange s)
  else if maskFlag s.frameH1 then
    match memReadBytes buf (bufMem buf s) s.mStart.toNat s.mN.toNat with
    | .error f => .fault f
    | .ok bs =>
      .next (maskCommit (setBufMem buf
        (memWriteBytes (bufMem buf s) s.mStart.toNat (xorSlice s.key s.mOff.toNat bs)) s))
  else .next (maskCommit s)

/-- MASK.SRC, BSEL = 0 (R120). -/
def execMaskSrc (s : State) : Host.Outcome State Fault Refusal :=
  maskSlice .src s

/-- MASK.DST, BSEL = 1 (R120, R126). -/
def execMaskDst (s : State) : Host.Outcome State Fault Refusal :=
  maskSlice .dst s

end Sys2Proof.Machine
end

