-- ==== Sys2Proof/Machine/Dispatch.lean ====
section
/-! DEFINITION. One arm per row of the opcode table. -/

namespace Sys2Proof.Machine

def exec (i : Instr) (s : State) : Host.Outcome State Fault Refusal :=
  match i with
  | .encode => Sys2Proof.Machine.execEncode s
  | .decode => Sys2Proof.Machine.execDecode s
  | .maskSrc => Sys2Proof.Machine.execMaskSrc s
  | .maskDst => Sys2Proof.Machine.execMaskDst s
  | .continuation fin rsv1 rsv2 rsv3 => Sys2Proof.Machine.execContinuation fin rsv1 rsv2 rsv3 s
  | .text fin rsv1 rsv2 rsv3 => Sys2Proof.Machine.execText fin rsv1 rsv2 rsv3 s
  | .binary fin rsv1 rsv2 rsv3 => Sys2Proof.Machine.execBinary fin rsv1 rsv2 rsv3 s
  | .close fin rsv1 rsv2 rsv3 => Sys2Proof.Machine.execClose fin rsv1 rsv2 rsv3 s
  | .ping fin rsv1 rsv2 rsv3 => Sys2Proof.Machine.execPing fin rsv1 rsv2 rsv3 s
  | .pong fin rsv1 rsv2 rsv3 => Sys2Proof.Machine.execPong fin rsv1 rsv2 rsv3 s

end Sys2Proof.Machine
end

