-- ==== Sys2Proof/Machine/HostPort.lean ====
section
/-! DEFINITION. The host interface (R35, R94, R95, R183): what each host action does to the block, and how the next action is
taken. -/

namespace Sys2Proof.Machine

/-- The action of a command mnemonic, or of writing header byte 0 to FRAME_H0: the pair (register number, value) (R93, R94). -/
def instrAction (i : Instr) : HostAction :=
  .set (encodePort i) (encode i).toNat

/-- Gives a value back to the host. Nothing else changes: no read has a side effect (R60). -/
def reply (r : Reply) (s : State) : State :=
  { s with replies := r :: s.replies }

/-- A write of CMD (R33, R149): a legal word runs its command, whose first check is the halt; a reserved word sets
FAULT.ILLCMD, or has no effect when the block is halted (R147, R148). -/
def commandWrite (w : Byte) (s : State) : Host.Outcome State Fault Refusal :=
  match decodeCommand w with
  | .ok i => exec i s
  | .error _ => if halted s then .next s else .next (raiseFault faultIllCmd s)

/-- A host write of FRAME_H0: a named opcode runs its row (R80 to R85); any other byte is stored the same way (R21, R86). -/
def headerWrite (b : Byte) (s : State) : Host.Outcome State Fault Refusal :=
  match decodeHeader0 b with
  | .ok i => exec i s
  | .error _ => .next (loadHeader0 b s)

/-- What a host write of an admitted value does, register by register (R33, R35). -/
def registerWrite (r : Reg) (value : Nat) (s : State) : Host.Outcome State Fault Refusal :=
  match r with
  | .cmd => commandWrite (BitVec.ofNat 8 value) s
  | .frameH0 => headerWrite (BitVec.ofNat 8 value) s
  | .status => .next (writeReg .status (BitVec.ofNat 64 value) s)
  | .fault => .next (writeReg .fault (BitVec.ofNat 64 value) s)
  | .resWritten => .next (writeReg .resWritten (BitVec.ofNat 64 value) s)
  | .resConsumed => .next (writeReg .resConsumed (BitVec.ofNat 64 value) s)
  | .resMasked => .next (writeReg .resMasked (BitVec.ofNat 64 value) s)
  | .frameH1 => .next (writeReg .frameH1 (BitVec.ofNat 64 value) s)
  | .frameLen => .next (writeReg .frameLen (BitVec.ofNat 64 value) s)
  | .frameMk0 => .next (writeReg .frameMk0 (BitVec.ofNat 64 value) s)
  | .frameMk1 => .next (writeReg .frameMk1 (BitVec.ofNat 64 value) s)
  | .frameMk2 => .next (writeReg .frameMk2 (BitVec.ofNat 64 value) s)
  | .frameMk3 => .next (writeReg .frameMk3 (BitVec.ofNat 64 value) s)
  | .srcLen => .next (writeReg .srcLen (BitVec.ofNat 64 value) s)
  | .rcur => .next (writeReg .rcur (BitVec.ofNat 64 value) s)
  | .cap => .next (writeReg .cap (BitVec.ofNat 64 value) s)
  | .wcur => .next (writeReg .wcur (BitVec.ofNat 64 value) s)
  | .mStart => .next (writeReg .mStart (BitVec.ofNat 64 value) s)
  | .mN => .next (writeReg .mN (BitVec.ofNat 64 value) s)
  | .mOff => .next (writeReg .mOff (BitVec.ofNat 64 value) s)

/-- `SET` (R35, R94): refused for an unassigned or read-only register and for a value that does not fit. -/
def hostSet (reg : Byte) (value : Nat) (s : State) : Host.Outcome State Fault Refusal :=
  match regOfNumber reg with
  | none => .refused (.unassignedRegister reg)
  | some r =>
    if hostWritable r then
      if value < 2 ^ regWidth r then registerWrite r value s else .refused (.valueTooWide reg value)
    else .refused (.readOnlyRegister reg)

/-- The value a host read of a register gives, or the refusal of R35. -/
def hostRead (reg : Byte) (s : State) : Except Refusal Word :=
  match regOfNumber reg with
  | none => .error (.unassignedRegister reg)
  | some r => if hostReadable r then .ok (readReg r s) else .error (.writeOnlyRegister reg)

/-- A host read of a register (R35, R183). -/
def hostGet (reg : Byte) (s : State) : Host.Outcome State Fault Refusal :=
  match hostRead reg s with
  | .error e => .refused e
  | .ok v => .next (reply (.value v) s)

/-- `EXPECT <reg> = <value>` (R94): a check that changes nothing; its outcome is a reply. The value is a natural number,
compared with what a host read gives, so that the code -1 of STATUS is expected as 0xFF. DESIGN CHOICE (log entry 15), safe. -/
def hostExpectReg (reg : Byte) (value : Nat) (s : State) : Host.Outcome State Fault Refusal :=
  match hostRead reg s with
  | .error e => .refused e
  | .ok v => .next (reply (.checked (decide (v.toNat = value))) s)

/-- The access of `n` bytes from `addr` up names an address the buffer does not have (R25, R27, R50). -/
def accessOutside (buf : Buf) (addr n : Nat) (s : State) : Bool :=
  decide (n ≠ 0) && decide ((bufSize buf s).toNat < addr + n)

/-- The first address of an access that the buffer does not have. -/
def firstOutside (buf : Buf) (addr : Nat) (s : State) : Nat :=
  max addr (bufSize buf s).toNat

/-- `POKE` (R94, R183): writes all the bytes, or none where one of them has no place in the buffer. -/
def hostPoke (buf : Buf) (addr : Nat) (bytes : List Byte) (s : State) : Host.Outcome State Fault Refusal :=
  if accessOutside buf addr bytes.length s then .fault (.noSuchByte buf (firstOutside buf addr s))
  else .next (setBufMem buf (memWriteBytes (bufMem buf s) addr bytes) s)

/-- The bytes a host read of a buffer gives, or its model fault (R40, R183). -/
def hostReadBytes (buf : Buf) (addr n : Nat) (s : State) : Except Fault (List Byte) :=
  if accessOutside buf addr n s then .error (.noSuchByte buf (firstOutside buf addr s))
  else memReadBytes buf (bufMem buf s) addr n

/-- A host read of a buffer (R183). -/
def hostPeek (buf : Buf) (addr n : Nat) (s : State) : Host.Outcome State Fault Refusal :=
  match hostReadBytes buf addr n s with
  | .error f => .fault f
  | .ok bs => .next (reply (.bytes bs) s)

/-- `EXPECT <buf>[addr..addr+n) = <bytes>` (R94): a check that changes nothing; its outcome is a reply. -/
def hostExpectBuf (buf : Buf) (addr : Nat) (bytes : List Byte) (s : State) : Host.Outcome State Fault Refusal :=
  match hostReadBytes buf addr bytes.length s with
  | .error f => .fault f
  | .ok bs => .next (reply (.checked (decide (bs = bytes))) s)

/-- The host actions a pseudo-instruction stands for (R95); the value expressions are computed from the registers as they
stand when the host comes to it. -/
def expandFeed (bytes : List Byte) (s : State) : List HostAction :=
  [.poke .src s.srcLen.toNat bytes, .set (regNumber .srcLen) (s.srcLen.toNat + bytes.length)]

/-- `SKIP <n>` (R95). -/
def expandSkip (n : Nat) (s : State) : List HostAction :=
  [.set (regNumber .rcur) (s.rcur.toNat + n)]

/-- `DRAIN` (R95). -/
def expandDrain (s : State) : List HostAction :=
  [.peek .dst 0 s.wcur.toNat, .set (regNumber .wcur) 0]

/-- `MASKAT <buf>, <start>, <n>, <off>` (R95). -/
def expandMaskAt (buf : Buf) (start n off : Nat) : List HostAction :=
  [.set (regNumber .mStart) start, .set (regNumber .mN) n, .set (regNumber .mOff) off,
   instrAction (match buf with
    | .src => .maskSrc
    | .dst => .maskDst)]

/-- Puts actions before the ones that wait. -/
def actFirst (as : List HostAction) (s : State) : State :=
  { s with actions := as ++ s.actions }

/-- One host action, already taken from the waiting ones (R94, R95, R183). -/
def perform (a : HostAction) (s : State) : Host.Outcome State Fault Refusal :=
  match a with
  | .set reg value => hostSet reg value s
  | .get reg => hostGet reg s
  | .poke buf addr bytes => hostPoke buf addr bytes s
  | .peek buf addr n => hostPeek buf addr n s
  | .expectReg reg value => hostExpectReg reg value s
  | .expectBuf buf addr bytes => hostExpectBuf buf addr bytes s
  | .reset => .next (resetBlock s)
  | .feed bytes => .next (actFirst (expandFeed bytes s) s)
  | .skip n => .next (actFirst (expandSkip n s) s)
  | .drain => .next (actFirst (expandDrain s) s)
  | .maskAt buf start n off => .next (actFirst (expandMaskAt buf start n off) s)

/-- The next host action. With none waiting the block waits too: nothing makes it step (R170, R183). -/
def takeAction (s : State) : Host.Outcome State Fault Refusal :=
  match s.actions with
  | [] => .next s
  | a :: rest => perform a { s with actions := rest }

/-- The host action that hands the block the one byte of an opcode table row (log entry 2): a write of CMD where the byte is
a command word, a write of FRAME_H0 where it is read as header byte 0. -/
def tableAction (nbits w : Nat) : HostAction :=
  match decodeCommand (tableByte nbits w) with
  | .ok _ => .set commandPort (tableByte nbits w).toNat
  | .error _ => .set headerPort (tableByte nbits w).toNat

/-- The state whose next host action hands the block that byte. -/
def placeWord (nbits w : Nat) (s : State) : State :=
  { s with actions := tableAction nbits w :: s.actions }

end Sys2Proof.Machine
end

