-- ==== Sys2Proof/Machine/Step.lean ====
section
/-! DEFINITION. One step: the next host action (R37, R61, R184). -/

namespace Sys2Proof.Machine

/-- One step of the machine: the host's next action and the whole of its effect, a command being one atomic transaction
(R59). -/
def step (s : State) : Host.Outcome State Fault Refusal :=
  takeAction s

/-- The state with an instruction of the opcode table placed as the next host action, so that the next step runs it. -/
def State.withFetchWord (s : State) (nbits w : Nat) : State :=
  placeWord nbits w s

end Sys2Proof.Machine
end

