-- ==== Sys2Proof/Safety.lean ====
section
/-! DEFINITION. The terms in which claims about the block are stated: the conditions of each command (R146), the invariants
every step keeps, the duties of the host (R173, R174), and the end of a run (R184). -/

namespace Sys2Proof.Machine

/-! ### Conditions of the commands -/

/-- The MASK command of a buffer (R89). -/
def maskOf : Buf → Instr
  | .src => .maskSrc
  | .dst => .maskDst

/-- ENCODE's range condition holds (R146). -/
def encodeInRange (s : State) : Prop :=
  s.wcur.toNat ≤ s.cap.toNat ∧ s.cap.toNat ≤ s.dstMax.toNat

/-- DECODE's range condition holds (R146). -/
def decodeInRange (s : State) : Prop :=
  s.rcur.toNat ≤ s.srcLen.toNat ∧ s.srcLen.toNat ≤ s.srcMax.toNat

/-- MASK's range condition holds (R146). -/
def maskInRange (buf : Buf) (s : State) : Prop :=
  s.mStart.toNat + s.mN.toNat ≤ (bufLimit buf s).toNat ∧ (bufLimit buf s).toNat ≤ (bufSize buf s).toNat

/-- A command faults with RANGE: the table of R146. A frame opcode is no command and has no range condition. -/
def rangeFails (i : Instr) (s : State) : Prop :=
  match i with
  | .encode => s.wcur.toNat > s.cap.toNat ∨ s.cap.toNat > s.dstMax.toNat
  | .decode => s.rcur.toNat > s.srcLen.toNat ∨ s.srcLen.toNat > s.srcMax.toNat
  | .maskSrc => s.mStart.toNat + s.mN.toNat > s.srcLen.toNat ∨ s.srcLen.toNat > s.srcMax.toNat
  | .maskDst => s.mStart.toNat + s.mN.toNat > s.cap.toNat ∨ s.cap.toNat > s.dstMax.toNat
  | .continuation _ _ _ _ => False
  | .text _ _ _ _ => False
  | .binary _ _ _ _ => False
  | .close _ _ _ _ => False
  | .ping _ _ _ _ => False
  | .pong _ _ _ _ => False

/-- The number of valid bytes from the read cursor on (R104). -/
def available (s : State) : Nat := s.srcLen.toNat - s.rcur.toNat

/-- The room left in the destination buffer (R100). -/
def room (s : State) : Nat := s.cap.toNat - s.wcur.toNat

/-- Fewer bytes stand between RCUR and SRC_LEN than the header there needs (R142); its first two bytes hold values if there
are so many. -/
def headerShort (s : State) : Prop :=
  available s < 2 ∨
    ∃ b0 b1, memRead s.src s.rcur.toNat = some b0 ∧ memRead s.src (s.rcur.toNat + 1) = some b1 ∧ available s < hsize b1

/-- A buffer holds a byte sequence from an address up. -/
def holdsAt (m : Memory) (a : Nat) (bs : List Byte) : Prop :=
  ∀ j, j < bs.length → memRead m (a + j) = bs[j]?

/-- Two buffers agree at every address outside `a` to `a + n - 1`. -/
def sameOutside (m m' : Memory) (a n : Nat) : Prop :=
  ∀ x, x < a ∨ a + n ≤ x → memRead m' x = memRead m x

/-- An outcome with its next state changed. -/
def mapNext (f : State → State) : Host.Outcome State Fault Refusal → Host.Outcome State Fault Refusal
  | .next t => .next (f t)
  | .fault r => .fault r
  | .refused r => .refused r

/-! ### Invariants -/

/-- Every listed address lies below a bound. -/
def memBelow (m : Memory) (bound : Nat) : Prop :=
  ∀ a, memRead m a ≠ none → a < bound

/-- Both buffers are in canonical form and hold values only at addresses they have (R25, R27). -/
def buffersSound (s : State) : Prop :=
  Memory.wf s.src = true ∧ Memory.wf s.dst = true ∧ memBelow s.src s.srcMax.toNat ∧ memBelow s.dst s.dstMax.toNat

/-- A count of 0 or of a header's size (R58). -/
def headerCount (n : Word) : Prop :=
  n.toNat = 0 ∨ n.toNat = 2 ∨ n.toNat = 4 ∨ n.toNat = 6 ∨ n.toNat = 8 ∨ n.toNat = 10 ∨ n.toNat = 14

/-- The result and fault registers hold what the block may leave in them: at most one FAULT bit, RANGE or ILLCMD (R32,
R148); STATUS one of the three codes the block raises (R141, R144, R145); at most one count not 0, and none but with STATUS
OK (R31); written and consumed counts of 0 or a header's size (R58). -/
def resultsSound (s : State) : Prop :=
  (s.fault = 0x00 ∨ s.fault = faultRange ∨ s.fault = faultIllCmd) ∧
  (s.status = statusOk ∨ s.status = statusInsufficientInput ∨ s.status = statusInsufficientOutputSpace) ∧
  (s.status ≠ statusOk → s.resWritten = 0 ∧ s.resConsumed = 0 ∧ s.resMasked = 0) ∧
  (s.resWritten ≠ 0 → s.resConsumed = 0 ∧ s.resMasked = 0) ∧
  (s.resConsumed ≠ 0 → s.resWritten = 0 ∧ s.resMasked = 0) ∧
  headerCount s.resWritten ∧ headerCount s.resConsumed

/-! ### The register map, written out again from R34

Independent of Sys2Proof/Machine/RegMap.lean, so that a statement holds the machine against the spec's table. -/

/-- The read-write rows: register, number, width, and the state in which its field holds the value. -/
def writeTable (value : Nat) (s : State) : List (Reg × Byte × Nat × State) :=
  [(Reg.frameH0, 0x08#8, 8, { s with frameH0 := BitVec.ofNat 8 value }),
   (Reg.frameH1, 0x09#8, 8, { s with frameH1 := BitVec.ofNat 8 value }),
   (Reg.frameLen, 0x0A#8, 64, { s with frameLen := BitVec.ofNat 64 value }),
   (Reg.frameMk0, 0x0B#8, 8, { s with key := { s.key with k0 := BitVec.ofNat 8 value } }),
   (Reg.frameMk1, 0x0C#8, 8, { s with key := { s.key with k1 := BitVec.ofNat 8 value } }),
   (Reg.frameMk2, 0x0D#8, 8, { s with key := { s.key with k2 := BitVec.ofNat 8 value } }),
   (Reg.frameMk3, 0x0E#8, 8, { s with key := { s.key with k3 := BitVec.ofNat 8 value } }),
   (Reg.srcLen, 0x10#8, 64, { s with srcLen := BitVec.ofNat 64 value }),
   (Reg.rcur, 0x11#8, 64, { s with rcur := BitVec.ofNat 64 value }),
   (Reg.cap, 0x12#8, 64, { s with cap := BitVec.ofNat 64 value }),
   (Reg.wcur, 0x13#8, 64, { s with wcur := BitVec.ofNat 64 value }),
   (Reg.mStart, 0x14#8, 64, { s with mStart := BitVec.ofNat 64 value }),
   (Reg.mN, 0x15#8, 64, { s with mN := BitVec.ofNat 64 value }),
   (Reg.mOff, 0x16#8, 64, { s with mOff := BitVec.ofNat 64 value })]

/-- The readable rows: register, number, and its field as a 64-bit value. -/
def readTable (s : State) : List (Reg × Byte × Word) :=
  [(Reg.status, 0x01#8, s.status.setWidth 64), (Reg.fault, 0x02#8, s.fault.setWidth 64),
   (Reg.resWritten, 0x03#8, s.resWritten), (Reg.resConsumed, 0x04#8, s.resConsumed),
   (Reg.resMasked, 0x05#8, s.resMasked),
   (Reg.frameH0, 0x08#8, s.frameH0.setWidth 64), (Reg.frameH1, 0x09#8, s.frameH1.setWidth 64),
   (Reg.frameLen, 0x0A#8, s.frameLen),
   (Reg.frameMk0, 0x0B#8, s.key.k0.setWidth 64), (Reg.frameMk1, 0x0C#8, s.key.k1.setWidth 64),
   (Reg.frameMk2, 0x0D#8, s.key.k2.setWidth 64), (Reg.frameMk3, 0x0E#8, s.key.k3.setWidth 64),
   (Reg.srcLen, 0x10#8, s.srcLen), (Reg.rcur, 0x11#8, s.rcur), (Reg.cap, 0x12#8, s.cap), (Reg.wcur, 0x13#8, s.wcur),
   (Reg.mStart, 0x14#8, s.mStart), (Reg.mN, 0x15#8, s.mN), (Reg.mOff, 0x16#8, s.mOff)]

/-! ### Duties of the host -/

/-- What FEED leaves (R95, R173): the bytes appended at SRC_LEN, and SRC_LEN raised over them. -/
def fed (bytes : List Byte) (s : State) : State :=
  { s with
    src := memWriteBytes s.src s.srcLen.toNat bytes
    srcLen := BitVec.ofNat 64 (s.srcLen.toNat + bytes.length) }

/-- The duty of R173 between a DECODE that ran short and its retry: RCUR and the unread bytes unchanged, bytes only
appended. -/
def unreadTailKept (s t : State) : Prop :=
  t.rcur = s.rcur ∧ s.srcLen.toNat ≤ t.srcLen.toNat ∧
    ∀ a, s.rcur.toNat ≤ a → a < s.srcLen.toNat → memRead t.src a = memRead s.src a

/-- The duty of R174 between an ENCODE that ran short and its retry: the same frame. -/
def sameFrame (s t : State) : Prop :=
  t.frameH0 = s.frameH0 ∧ maskFlag t.frameH1 = maskFlag s.frameH1 ∧ t.frameLen = s.frameLen ∧ t.key = s.key

/-! ### Runs -/

/-- A host program started from a state, for at most `n` steps (R184). -/
def runProgram (program : List HostAction) (n : Nat) (s : State) : Host.Outcome State Fault Refusal :=
  Host.Core.run Sys2Proof.core n { s with actions := program }

/-- The run has ended: its last action is done (R184). -/
def runEnded (s : State) : Prop := s.actions = []

/-- The run ended faulted (R184). -/
def runEndedFaulted (s : State) : Prop := s.actions = [] ∧ s.fault ≠ 0

end Sys2Proof.Machine
end

