-- ==== Sys2Proof/WellFormed.lean ====
section
/-! DEFINITION. Well-formed instructions and host actions: the checks the spec makes on a host action before the block sees
it (R35, R94). -/

namespace Sys2Proof

/-- Every instruction is well formed: a command word has no operand field (R89) and every value of FIN and the RSV bits is
legal in header byte 0 (R71, R88). One line a constructor, so that a new operand field meets a check here. -/
def Instr.wellFormed : Instr → Bool
  | .encode => true
  | .decode => true
  | .maskSrc => true
  | .maskDst => true
  | .continuation _ _ _ _ => true
  | .text _ _ _ _ => true
  | .binary _ _ _ _ => true
  | .close _ _ _ _ => true
  | .ping _ _ _ _ => true
  | .pong _ _ _ _ => true

/-- A host write the spec admits: an assigned, writable register and a value that fits its width (R35, R94). -/
def Machine.setWellFormed (reg : Byte) (value : Nat) : Bool :=
  match Machine.regOfNumber reg with
  | none => false
  | some r => Machine.hostWritable r && decide (value < 2 ^ Machine.regWidth r)

/-- A host read the spec admits: an assigned register other than CMD (R35). -/
def Machine.getWellFormed (reg : Byte) : Bool :=
  match Machine.regOfNumber reg with
  | none => false
  | some r => Machine.hostReadable r

/-- The checks of R35 and R94 on one host action. Buffer addresses are checked against the buffers' sizes when the action
runs, because the sizes are the machine's. -/
def Machine.HostAction.wellFormed : Machine.HostAction → Bool
  | .set reg value => Machine.setWellFormed reg value
  | .get reg => Machine.getWellFormed reg
  | .poke _ _ _ => true
  | .peek _ _ _ => true
  | .expectReg reg _ => Machine.getWellFormed reg
  | .expectBuf _ _ _ => true
  | .reset => true
  | .feed _ => true
  | .skip _ => true
  | .drain => true
  | .maskAt _ start n off => decide (start < 2 ^ 64) && decide (n < 2 ^ 64) && decide (off < 2 ^ 64)

end Sys2Proof
end

