-- ==== Sys2Proof/Certificates/Slice0/Obligations.lean ====
section
/-! DEFINITION. The statements for the provers, from the numbered rules of spec/. A statement about an open value holds for
every value of it. -/

open Sys2Proof Sys2Proof.Machine

/-! ### Reset, the host's actions and decoding -/

/-- R39: after reset every register holds the value of R34's reset column and both buffers hold no value. CMD stores
nothing. -/
def Obligations.ResetLeavesRegistersZeroAndBuffersEmpty : Prop :=
  (∀ r : Reg, r ≠ .cmd → readReg r State.reset = 0) ∧
  ∀ a, memRead State.reset.src a = none ∧ memRead State.reset.dst a = none

/-- R170: the host's RESET does the same in every state, the halted ones too. The sizes are parameters and stay; that the
waiting actions, the replies and the draw counter stay is the model's choice (log entry 13). -/
def Obligations.ResetActionRestoresTheResetState : Prop :=
  ∀ (s : State) (rest : List HostAction), s.actions = .reset :: rest →
    ∃ t, step s = .next t ∧ (∀ r : Reg, r ≠ .cmd → readReg r t = 0) ∧
      (∀ a, memRead t.src a = none ∧ memRead t.dst a = none) ∧
      t.srcMax = s.srcMax ∧ t.dstMax = s.dstMax ∧ t.draws = s.draws ∧ t.actions = rest ∧ t.replies = s.replies

/-- R170, R183: with no host action waiting the block does nothing. That a step then answers the same state is the model's
choice (log entry 3). -/
def Obligations.WaitingBlockStaysAsItIs : Prop :=
  ∀ s : State, s.actions = [] → step s = .next s

/-- R33, R94: a host write whose pair (register number, value) decodes to an instruction runs that instruction, and nothing
else happens but that the action is taken. For the port of CMD that is R33; for the port of FRAME_H0 (R35, R71), that the
write runs the frame opcode of its byte is the model's reading (log entry 1). -/
def Obligations.StepRunsTheDecodedInstruction : Prop :=
  ∀ (s : State) (rest : List HostAction) (port value : Byte) (i : Instr),
    s.actions = .set port value.toNat :: rest → decodePair port value = .ok i →
    step s = exec i { s with actions := rest }

/-- R93, R94: the action an instruction assembles to runs it. For a frame opcode the register is FRAME_H0, by the model's
reading of the table's rows (log entry 1). -/
def Obligations.AssembledInstructionRuns : Prop :=
  ∀ (s : State) (rest : List HostAction) (i : Instr), s.actions = instrAction i :: rest →
    step s = exec i { s with actions := rest }

/-- The byte of a table row placed as the next host action is run by the next step, by the model's way of placing it (log
entry 2). -/
def Obligations.PlacedTableWordRunsNext : Prop :=
  ∀ (s : State) (nbits w : Nat) (i : Instr), decodeTableWord nbits w = some i →
    step (s.withFetchWord nbits w) = exec i s

/-- R80 to R85, R90: words written out from the encodings decode to the instructions they stand for. -/
def Obligations.WordsDecodeToTheirInstructions : Prop :=
  decodePair 0x00 0b00000001#8 = .ok .encode ∧
  decodePair 0x00 0b00000010#8 = .ok .decode ∧
  decodePair 0x00 0b00000011#8 = .ok .maskSrc ∧
  decodePair 0x00 0b00010011#8 = .ok .maskDst ∧
  decodePair 0x08 0b00000000#8 = .ok (.continuation false false false false) ∧
  decodePair 0x08 0b10000001#8 = .ok (.text true false false false) ∧
  decodePair 0x08 0b01000010#8 = .ok (.binary false true false false) ∧
  decodePair 0x08 0b10001000#8 = .ok (.close true false false false) ∧
  decodePair 0x08 0b00101001#8 = .ok (.ping false false true false) ∧
  decodePair 0x08 0b10011010#8 = .ok (.pong true false false true)

/-- R71, R89 to R91, R80 to R86: on its register an instruction's byte decodes to it, and to nothing else does any byte
decode: where decoding answers an instruction, that instruction's byte and register are the ones decoded. -/
def Obligations.DecodingInvertsEncoding : Prop :=
  (∀ i : Instr, i.wellFormed = true → decodePair (encodePort i) (encode i) = .ok i) ∧
  ∀ (port value : Byte) (i : Instr), decodePair port value = .ok i → encodePort i = port ∧ encode i = value

/-- R90: exactly four command words are legal, each with its mnemonic. -/
def Obligations.ExactlyFourCommandWordsAreLegal : Prop :=
  ∀ (w : Byte) (i : Instr), decodeCommand w = .ok i ↔
    (w = 0x01 ∧ i = .encode) ∨ (w = 0x02 ∧ i = .decode) ∨ (w = 0x03 ∧ i = .maskSrc) ∨ (w = 0x13 ∧ i = .maskDst)

/-! ### Faults and outcomes -/

/-- R147: a reserved command word sets FAULT.ILLCMD and changes nothing else. -/
def Obligations.ReservedCommandWordSetsIllcmd : Prop :=
  ∀ (s : State) (rest : List HostAction) (w : Byte),
    s.actions = .set 0x00 w.toNat :: rest → s.fault = 0 →
    w ≠ 0x01 → w ≠ 0x02 → w ≠ 0x03 → w ≠ 0x13 →
    step s = .next { s with actions := rest, fault := 0x02 }

/-- R148, first part: while FAULT is not 0 a write of any word to CMD has no effect. -/
def Obligations.HaltedBlockIgnoresEveryCommandWord : Prop :=
  ∀ (s : State) (rest : List HostAction) (w : Byte),
    s.actions = .set 0x00 w.toNat :: rest → s.fault ≠ 0 → step s = .next { s with actions := rest }

/-- R32, R148, R151: no step but RESET changes a FAULT that is not 0, and RESET clears it. -/
def Obligations.OnlyResetEndsAHalt : Prop :=
  ∀ s t : State, s.fault ≠ 0 → step s = .next t →
    (s.actions.head? = some .reset → t.fault = 0) ∧ (s.actions.head? ≠ some .reset → t.fault = s.fault)

/-- R146: each command faults with RANGE exactly in the cases of the table, and then changes FAULT bit 0 alone; RCUR =
SRC_LEN is InsufficientInput and no fault. -/
def Obligations.OutOfRangeCommandSetsRangeAlone : Prop :=
  (∀ s : State, s.fault = 0 → s.wcur.toNat > s.cap.toNat ∨ s.cap.toNat > s.dstMax.toNat →
    exec .encode s = .next { s with fault := 0x01 }) ∧
  (∀ s : State, s.fault = 0 → s.rcur.toNat > s.srcLen.toNat ∨ s.srcLen.toNat > s.srcMax.toNat →
    exec .decode s = .next { s with fault := 0x01 }) ∧
  (∀ s : State, s.fault = 0 → s.mStart.toNat + s.mN.toNat > s.srcLen.toNat ∨ s.srcLen.toNat > s.srcMax.toNat →
    exec .maskSrc s = .next { s with fault := 0x01 }) ∧
  (∀ s : State, s.fault = 0 → s.mStart.toNat + s.mN.toNat > s.cap.toNat ∨ s.cap.toNat > s.dstMax.toNat →
    exec .maskDst s = .next { s with fault := 0x01 }) ∧
  (∀ (i : Instr) (s t : State), s.fault = 0 → ¬ rangeFails i s → exec i s = .next t → t.fault = 0) ∧
  (∀ s : State, s.fault = 0 → s.rcur = s.srcLen → s.srcLen.toNat ≤ s.srcMax.toNat →
    ∃ t, exec .decode s = .next t ∧ t.status = 0xFF ∧ t.fault = 0)

/-- R149: a CMD write checks, in this order and stopping at the first that applies: the halt; the reserved words; the range
condition; the command's own condition (for DECODE fewer than 2 bytes, then fewer than the header needs); else OK. -/
def Obligations.CommandChecksComeInOrder : Prop :=
  ∀ (s : State) (rest : List HostAction) (w : Byte), s.actions = .set 0x00 w.toNat :: rest →
    (s.fault ≠ 0 → step s = .next { s with actions := rest }) ∧
    (s.fault = 0 → (∀ i, decodeCommand w ≠ .ok i) → step s = .next { s with actions := rest, fault := 0x02 }) ∧
    (∀ i, s.fault = 0 → decodeCommand w = .ok i → rangeFails i s →
      step s = .next { s with actions := rest, fault := 0x01 }) ∧
    (∀ t, s.fault = 0 → w = 0x02 → ¬ rangeFails .decode s → step s = .next t →
      t.fault = 0 ∧
      t.status = if available s < 2 then 0xFF
        else if available s < hsize ((memRead s.src (s.rcur.toNat + 1)).getD 0) then 0xFF else 0x00) ∧
    (∀ t, s.fault = 0 → w = 0x01 → ¬ rangeFails .encode s → step s = .next t →
      t.fault = 0 ∧
      t.status = if room s < hsize (withLenInd s.frameH1 (lenind s.frameLen)) then 0xFE else 0x00) ∧
    (∀ t, s.fault = 0 → w = 0x03 → ¬ rangeFails .maskSrc s → step s = .next t → t.fault = 0 ∧ t.status = 0x00) ∧
    (∀ t, s.fault = 0 → w = 0x13 → ¬ rangeFails .maskDst s → step s = .next t → t.fault = 0 ∧ t.status = 0x00)

/-- R40, R140: no instruction is refused, and one stops only by reading a byte, below SRC_LEN or CAP, that holds no value; so
where every byte below SRC_LEN and CAP holds one, every instruction completes. -/
def Obligations.InstructionsStopOnlyOnUnwrittenBytes : Prop :=
  (∀ (i : Instr) (s : State), (∃ t, exec i s = .next t) ∨
    ∃ buf a, exec i s = .fault (.unwrittenByte buf a) ∧ a < (bufLimit buf s).toNat ∧ memRead (bufMem buf s) a = none) ∧
  ∀ (i : Instr) (s : State), memWritten s.src 0 s.srcLen.toNat → memWritten s.dst 0 s.cap.toNat →
    ∃ t, exec i s = .next t

/-- R40: a DECODE that needs a header byte (byte 0, byte 1, or one after them), and a MASK with MASKF = 1 that needs a slice
byte, that holds no value stops with the model fault. That the fault names the lowest such address is the model's choice (log
entry 8). -/
def Obligations.ReadingAnUnwrittenByteFaults : Prop :=
  (∀ s : State, s.fault = 0 → decodeInRange s → 2 ≤ available s → memRead s.src s.rcur.toNat = none →
    exec .decode s = .fault (.unwrittenByte .src s.rcur.toNat)) ∧
  (∀ (s : State) (b0 : Byte), s.fault = 0 → decodeInRange s → 2 ≤ available s → memRead s.src s.rcur.toNat = some b0 →
    memRead s.src (s.rcur.toNat + 1) = none →
    exec .decode s = .fault (.unwrittenByte .src (s.rcur.toNat + 1))) ∧
  (∀ (s : State) (b0 b1 : Byte) (x : Nat), s.fault = 0 → decodeInRange s →
    memRead s.src s.rcur.toNat = some b0 → memRead s.src (s.rcur.toNat + 1) = some b1 → hsize b1 ≤ available s →
    s.rcur.toNat + 2 ≤ x → x < s.rcur.toNat + hsize b1 → memRead s.src x = none →
    (∀ y, s.rcur.toNat + 2 ≤ y → y < x → memRead s.src y ≠ none) →
    exec .decode s = .fault (.unwrittenByte .src x)) ∧
  (∀ (buf : Buf) (s : State) (x : Nat), s.fault = 0 → maskInRange buf s → maskFlag s.frameH1 = true →
    s.mStart.toNat ≤ x → x < s.mStart.toNat + s.mN.toNat → memRead (bufMem buf s) x = none →
    (∀ y, s.mStart.toNat ≤ y → y < x → memRead (bufMem buf s) y ≠ none) →
    exec (maskOf buf) s = .fault (.unwrittenByte buf x))

/-! ### Frame opcodes -/

/-- R71, R79 to R85: each of the six named frame opcodes, with every value of FIN and the RSV bits, in every state and
halted or not, completes with FRAME_H0 holding its byte and nothing else changed. That this is the effect of the row is the
model's reading (log entry 1). -/
def Obligations.FrameOpcodeSetsHeaderByte0Alone : Prop :=
  ∀ (fin rsv1 rsv2 rsv3 : Bool) (s : State) (i : Instr) (opcode : BitVec 4),
    (i, opcode) ∈ [(Instr.continuation fin rsv1 rsv2 rsv3, 0x0#4), (Instr.text fin rsv1 rsv2 rsv3, 0x1#4),
      (Instr.binary fin rsv1 rsv2 rsv3, 0x2#4), (Instr.close fin rsv1 rsv2 rsv3, 0x8#4),
      (Instr.ping fin rsv1 rsv2 rsv3, 0x9#4), (Instr.pong fin rsv1 rsv2 rsv3, 0xA#4)] →
    ∃ b : Byte, exec i s = .next { s with frameH0 := b } ∧
      b.getLsbD 7 = fin ∧ b.getLsbD 6 = rsv1 ∧ b.getLsbD 5 = rsv2 ∧ b.getLsbD 4 = rsv3 ∧ b.extractLsb' 0 4 = opcode

/-- R79 (and R86, R88): ENCODE, DECODE and MASK treat all values of header byte 0 alike. With any other byte in FRAME_H0,
MASK does the same; DECODE does the same, storing byte 0 as it arrives where it succeeds; ENCODE does the same but for the
one byte at WCUR, which is FRAME_H0 as it stands. -/
def Obligations.CommandsTreatEveryHeaderByte0Alike : Prop :=
  ∀ (s : State) (h : Byte),
    (∀ buf, exec (maskOf buf) { s with frameH0 := h } =
      mapNext (fun t => { t with frameH0 := h }) (exec (maskOf buf) s)) ∧
    (∀ t, exec .decode s = .next t → ∃ t', exec .decode { s with frameH0 := h } = .next t' ∧
      { t' with frameH0 := 0 } = { t with frameH0 := 0 } ∧
      (t.rcur ≠ s.rcur → t'.frameH0 = t.frameH0 ∧ memRead s.src s.rcur.toNat = some t.frameH0) ∧
      (t.rcur = s.rcur → t'.frameH0 = h ∧ t.frameH0 = s.frameH0)) ∧
    (∀ t, exec .encode s = .next t → ∃ t', exec .encode { s with frameH0 := h } = .next t' ∧
      { t' with frameH0 := 0, dst := [] } = { t with frameH0 := 0, dst := [] } ∧ t'.frameH0 = h ∧
      (∀ a, a ≠ s.wcur.toNat → memRead t'.dst a = memRead t.dst a) ∧
      (t.wcur ≠ s.wcur → memRead t'.dst s.wcur.toNat = some h))

/-! ### The wire format -/

/-- R74 (with R73): the header size from byte 1 alone, by the table. -/
def Obligations.HeaderSizeComesFromByte1 : Prop :=
  ∀ b1 : Byte, hsize b1 =
    if maskFlag b1 then (if (lenIndField b1).toNat ≤ 125 then 6 else if (lenIndField b1).toNat = 126 then 8 else 14)
    else (if (lenIndField b1).toNat ≤ 125 then 2 else if (lenIndField b1).toNat = 126 then 4 else 10)

/-- R76: the indicator and the extended length bytes by the magnitude of the length, the bytes spelling it big-endian; and no
spelling that DECODE reads as the same length is shorter. -/
def Obligations.EncoderPicksTheShortestLength : Prop :=
  ∀ len : Word,
    (len.toNat < 126 → (lenind len).toNat = len.toNat ∧ extBytes len = []) ∧
    (126 ≤ len.toNat → len.toNat < 65536 →
      lenind len = 126 ∧ (extBytes len).length = 2 ∧ beNat (extBytes len) = len.toNat) ∧
    (65536 ≤ len.toNat → lenind len = 127 ∧ (extBytes len).length = 8 ∧ beNat (extBytes len) = len.toNat) ∧
    (∀ (ind : BitVec 7) (extended : List Byte), extended.length = ext ind → assembleLen ind extended = len →
      ext (lenind len) ≤ ext ind)

/-- R75: the length a header announces: the indicator itself up to 125, else the big-endian number of all its extended length
bytes, none ignored and none checked; so every length comes back from the spelling R76 gives it. -/
def Obligations.LengthIsAssembledBigEndian : Prop :=
  (∀ (ind : BitVec 7) (extended : List Byte), extended.length = ext ind →
    (assembleLen ind extended).toNat = if ind.toNat ≤ 125 then ind.toNat else beNat extended) ∧
  (∀ bs : List Byte, ∀ b : Byte, beNat (bs ++ [b]) = beNat bs * 256 + b.toNat) ∧
  ∀ len : Word, assembleLen (lenind len) (extBytes len) = len

/-- R101: the encoded header is byte 0, byte 1, the extended length bytes, then the four key bytes where byte 1 has MASKF set,
and its length is the size byte 1 announces. -/
def Obligations.EncodedHeaderLayout : Prop :=
  ∀ (h0 h1 : Byte) (len : Word) (key : Key), lenIndField h1 = lenind len →
    (encodeBytes h0 h1 len key).length = hsize h1 ∧
    (encodeBytes h0 h1 len key)[0]? = some h0 ∧ (encodeBytes h0 h1 len key)[1]? = some h1 ∧
    (∀ j, j < ext (lenIndField h1) → (encodeBytes h0 h1 len key)[2 + j]? = (extBytes len)[j]?) ∧
    (maskFlag h1 = true → ∀ k, k < 4 →
      (encodeBytes h0 h1 len key)[2 + ext (lenIndField h1) + k]? = some (keyLane key k))

/-! ### ENCODE -/

/-- R100: where ENCODE runs, in range and with room for the header, it writes the header at WCUR and no other byte, advances
WCUR over it, sets FRAME_H1, STATUS and the RES registers, and changes nothing else. -/
def Obligations.EncodeWritesTheHeader : Prop :=
  ∀ s : State, s.fault = 0 → s.wcur.toNat ≤ s.cap.toNat → s.cap.toNat ≤ s.dstMax.toNat →
    hsize (withLenInd s.frameH1 (lenind s.frameLen)) ≤ s.cap.toNat - s.wcur.toNat →
    ∃ t, exec .encode s = .next t ∧
      (∀ j, j < hsize t.frameH1 → memRead t.dst (s.wcur.toNat + j) =
        (encodeBytes s.frameH0 t.frameH1 s.frameLen s.key)[j]?) ∧
      (∀ a, a < s.wcur.toNat ∨ s.wcur.toNat + hsize t.frameH1 ≤ a → memRead t.dst a = memRead s.dst a) ∧
      t.wcur.toNat = s.wcur.toNat + hsize t.frameH1 ∧ t.resWritten.toNat = hsize t.frameH1 ∧
      t = { s with
        dst := t.dst, wcur := t.wcur, frameH1 := withLenInd s.frameH1 (lenind s.frameLen),
        status := 0x00, resWritten := t.resWritten, resConsumed := 0, resMasked := 0 }

/-- R143 (with R103): where the header does not fit, ENCODE answers InsufficientOutputSpace with all counts 0, writes no byte
and moves no cursor; FRAME_H1 keeps MASKF and holds its old indicator or the new one, whichever is drawn (the draw counter is
the model's, log entry 7). No other instruction raises that status. -/
def Obligations.EncodeShortOfSpaceWritesNothing : Prop :=
  (∀ s : State, s.fault = 0 → s.wcur.toNat ≤ s.cap.toNat → s.cap.toNat ≤ s.dstMax.toNat →
    s.cap.toNat - s.wcur.toNat < hsize (withLenInd s.frameH1 (lenind s.frameLen)) →
    ∃ t, exec .encode s = .next t ∧
      (t.frameH1 = s.frameH1 ∨ t.frameH1 = withLenInd s.frameH1 (lenind s.frameLen)) ∧
      t = { s with
        frameH1 := t.frameH1, draws := t.draws, status := 0xFE, resWritten := 0, resConsumed := 0, resMasked := 0 }) ∧
  ∀ (i : Instr) (s t : State), i ≠ .encode → exec i s = .next t → t.status = 0xFE → s.status = 0xFE

/-- R102: a successful ENCODE keeps MASKF, overwrites bits 6:0 of FRAME_H1 with the indicator of FRAME_LEN and writes that
byte 1; what bits 6:0 held before changes nothing. -/
def Obligations.EncodeOverwritesTheLengthIndicator : Prop :=
  ∀ s t : State, s.fault = 0 → exec .encode s = .next t → t.fault = 0 → t.status = 0x00 →
    maskFlag t.frameH1 = maskFlag s.frameH1 ∧ lenIndField t.frameH1 = lenind s.frameLen ∧
    memRead t.dst (s.wcur.toNat + 1) = some t.frameH1 ∧
    ∀ ind : BitVec 7, exec .encode { s with frameH1 := withLenInd s.frameH1 ind } = .next t

/-- R174: after an ENCODE that ran short, an ENCODE of the same frame in any state with room for it writes the header the
first attempt would have written. -/
def Obligations.EncodeRetryWritesTheSameHeader : Prop :=
  ∀ s t u : State, s.fault = 0 → exec .encode s = .next t → t.fault = 0 → t.status = 0xFE →
    u.fault = 0 → sameFrame t u → encodeInRange u → hsize (withLenInd s.frameH1 (lenind s.frameLen)) ≤ room u →
    ∃ v, exec .encode u = .next v ∧ v.status = 0x00 ∧
      holdsAt v.dst u.wcur.toNat
        (encodeBytes s.frameH0 (withLenInd s.frameH1 (lenind s.frameLen)) s.frameLen s.key)

/-! ### DECODE -/

/-- R104: where DECODE runs, in range, and a whole header stands at RCUR (its bytes as R70 lays them out), it completes with
that header in the FRAME registers, advances RCUR over it, sets STATUS and the RES registers, and changes nothing else but,
for an unmasked header, the key it draws (the draw counter is the model's, log entry 7). Every byte 0, every indicator, every
extended length is accepted. -/
def Obligations.DecodeParsesTheHeader : Prop :=
  ∀ (s : State) (b0 b1 : Byte) (extended : List Byte) (key : Key),
    s.fault = 0 → s.rcur.toNat ≤ s.srcLen.toNat → s.srcLen.toNat ≤ s.srcMax.toNat →
    hsize b1 ≤ s.srcLen.toNat - s.rcur.toNat →
    memRead s.src s.rcur.toNat = some b0 → memRead s.src (s.rcur.toNat + 1) = some b1 →
    extended.length = ext (lenIndField b1) → holdsAt s.src (s.rcur.toNat + 2) extended →
    (maskFlag b1 = true → ∀ k, k < 4 →
      memRead s.src (s.rcur.toNat + 2 + ext (lenIndField b1) + k) = some (keyLane key k)) →
    ∃ t, exec .decode s = .next t ∧
      t.frameLen.toNat = (if (lenIndField b1).toNat ≤ 125 then (lenIndField b1).toNat else beNat extended) ∧
      (maskFlag b1 = true → t.key = key ∧ t.draws = s.draws) ∧
      t.rcur.toNat = s.rcur.toNat + hsize b1 ∧ t.resConsumed.toNat = hsize b1 ∧
      t = { s with
        frameH0 := b0, frameH1 := b1, frameLen := t.frameLen, key := t.key, rcur := t.rcur,
        status := 0x00, resConsumed := t.resConsumed, resWritten := 0, resMasked := 0, draws := t.draws }

/-- R105 (with R142): where fewer bytes stand than the header needs, at whichever step, DECODE answers InsufficientInput with
all counts 0 and changes nothing else. -/
def Obligations.DecodeShortOfInputCommitsNothing : Prop :=
  ∀ s : State, s.fault = 0 → s.rcur.toNat ≤ s.srcLen.toNat → s.srcLen.toNat ≤ s.srcMax.toNat → headerShort s →
    exec .decode s = .next { s with status := 0xFF, resWritten := 0, resConsumed := 0, resMasked := 0 }

/-- R173, R104: what DECODE answers depends on the unread bytes alone, wherever they stand: two states whose unread bytes are
the same sequence get the same header. -/
def Obligations.DecodeDependsOnTheUnreadBytesAlone : Prop :=
  ∀ s t u : State, s.fault = 0 → u.fault = 0 → decodeInRange s → decodeInRange u → available u = available s →
    (∀ j, j < available s → memRead u.src (u.rcur.toNat + j) = memRead s.src (s.rcur.toNat + j)) →
    exec .decode s = .next t →
    ∃ v, exec .decode u = .next v ∧ v.status = t.status ∧ v.resConsumed = t.resConsumed ∧
      v.rcur.toNat - u.rcur.toNat = t.rcur.toNat - s.rcur.toNat ∧
      (t.status = 0x00 → v.frameH0 = t.frameH0 ∧ v.frameH1 = t.frameH1 ∧ v.frameLen = t.frameLen ∧
        (maskFlag t.frameH1 = true → v.key = t.key))

/-- R173: after a DECODE that ran short, FEED leaves the unread bytes and RCUR as they were and the retried DECODE does
exactly what it would have done had the first attempt never run. -/
def Obligations.DecodeRetryAfterFeedIsExact : Prop :=
  ∀ (s t : State) (bytes : List Byte), s.fault = 0 → exec .decode s = .next t → t.fault = 0 → t.status = 0xFF →
    s.srcLen.toNat + bytes.length ≤ s.srcMax.toNat →
    unreadTailKept s (fed bytes t) ∧ exec .decode (fed bytes t) = exec .decode (fed bytes s)

/-- R60: a failed DECODE repeated with the same inputs gives the same result, and a failed ENCODE the same but for the
indicator it draws again. -/
def Obligations.FailedCommandRepeatsItsResult : Prop :=
  (∀ s t : State, s.fault = 0 → exec .decode s = .next t → t.fault = 0 → t.status = 0xFF → exec .decode t = .next t) ∧
  ∀ s t : State, s.fault = 0 → exec .encode s = .next t → t.fault = 0 → t.status = 0xFE →
    ∃ u, exec .encode t = .next u ∧ u = { t with frameH1 := u.frameH1, draws := u.draws } ∧
      (u.frameH1 = s.frameH1 ∨ u.frameH1 = withLenInd s.frameH1 (lenind s.frameLen))

/-- R106: no command reads the key while FRAME_H1[7] is 0: with any other key, ENCODE and both MASKs do the same, and DECODE
stores the same everywhere but in the key. -/
def Obligations.KeyIsNotReadWhileUnmasked : Prop :=
  ∀ (s : State) (key : Key), maskFlag s.frameH1 = false →
    exec .encode { s with key := key } = mapNext (fun t => { t with key := key }) (exec .encode s) ∧
    (∀ buf, exec (maskOf buf) { s with key := key } = mapNext (fun t => { t with key := key }) (exec (maskOf buf) s)) ∧
    (∀ other, mapNext (fun t => { t with key := other }) (exec .decode { s with key := key }) =
      mapNext (fun t => { t with key := other }) (exec .decode s))

/-! ### Laws of the codec -/

/-- R107: a header ENCODE wrote, standing anywhere in the unread bytes of any running block, decodes to the frame it was
encoded from, byte 1 as ENCODE left it, and the key too where MASKF is set. For every length. -/
def Obligations.DecodeOfEncodedFrameIsTheFrame : Prop :=
  ∀ s t u : State, s.fault = 0 → exec .encode s = .next t → t.fault = 0 → t.status = 0x00 →
    u.fault = 0 → decodeInRange u → t.resWritten.toNat ≤ available u →
    (∀ j, j < t.resWritten.toNat → memRead u.src (u.rcur.toNat + j) = memRead t.dst (s.wcur.toNat + j)) →
    ∃ v, exec .decode u = .next v ∧ v.status = 0x00 ∧ v.frameH0 = s.frameH0 ∧
      maskFlag v.frameH1 = maskFlag s.frameH1 ∧ lenIndField v.frameH1 = lenind s.frameLen ∧ v.frameH1 = t.frameH1 ∧
      v.frameLen = s.frameLen ∧ v.resConsumed = t.resWritten ∧ (maskFlag s.frameH1 = true → v.key = s.key)

/-- R108: encoding a decoded frame writes the bytes that were decoded exactly where they spell the length in its shortest
form; for a longer spelling it writes fewer bytes. Either way the indicator of the shortest form is left. -/
def Obligations.EncodeOfDecodedFrameIsMinimal : Prop :=
  ∀ s t r u : State, s.fault = 0 → exec .decode s = .next t → t.fault = 0 → t.status = 0x00 →
    r.fault = 0 → sameFrame t r → exec .encode r = .next u → u.fault = 0 → u.status = 0x00 →
    lenIndField u.frameH1 = lenind t.frameLen ∧
    ((u.resWritten = t.resConsumed ∧
      ∀ j, j < u.resWritten.toNat → memRead u.dst (r.wcur.toNat + j) = memRead s.src (s.rcur.toNat + j)) ↔
      lenIndField t.frameH1 = lenind t.frameLen) ∧
    (lenIndField t.frameH1 ≠ lenind t.frameLen → u.resWritten.toNat < t.resConsumed.toNat)

/-- R110, R134: ENCODE gives the same result as its chain of APPENDs on local copies, in every state. -/
def Obligations.EncodeIsItsChainOfAppends : Prop :=
  ∀ s : State, exec .encode s = encodeByAppends s

/-- R110, R134: DECODE gives the same result as its chain of CONSUMEs on a local copy of the cursor, where the unread bytes
hold values. -/
def Obligations.DecodeIsItsChainOfConsumes : Prop :=
  ∀ s : State, memWritten s.src s.rcur.toNat (available s) → exec .decode s = decodeByConsumes s

/-- R130: APPEND writes the bytes at the cursor and answers the cursor past them exactly where they fit, and otherwise fails
and writes nothing; a cursor above the capacity is the caller's fault. -/
def Obligations.AppendWritesAllOrNothing : Prop :=
  ∀ (d : Memory) (w c : Nat) (s : List Byte),
    (c < w → append d w c s = .outside) ∧
    (w ≤ c → s.length ≤ c - w →
      ∃ d', append d w c s = .ok (d', w + s.length) ∧ holdsAt d' w s ∧ sameOutside d d' w s.length) ∧
    (w ≤ c → c - w < s.length → append d w c s = .short)

/-- R131: CONSUME answers the bytes at the cursor, where they hold values, and the cursor past them exactly where there are so
many, and otherwise fails and reads nothing; a cursor above the length is the caller's fault. -/
def Obligations.ConsumeReadsAllOrNothing : Prop :=
  ∀ (k : Nat) (m : Memory) (r l : Nat),
    (l < r → consume k m r l = .ok .outside) ∧
    (r ≤ l → k ≤ l - r → memWritten m r k →
      ∃ bs, consume k m r l = .ok (.ok (bs, r + k)) ∧ bs.length = k ∧ holdsAt m r bs) ∧
    (r ≤ l → l - r < k → consume k m r l = .ok .short)

/-- R40, R7: a CONSUME of bytes that are there but not all hold values is the model fault. That it names the first of them is
the model's choice (log entry 8). -/
def Obligations.ConsumeOfAnUnwrittenByteFaults : Prop :=
  ∀ (k : Nat) (m : Memory) (r l x : Nat), r ≤ l → k ≤ l - r → r ≤ x → x < r + k → memRead m x = none →
    (∀ y, r ≤ y → y < x → memRead m y ≠ none) → consume k m r l = .error (.unwrittenByte .src x)

/-! ### MASK -/

/-- R120, R121: where MASK.SRC (buffer SRC) or MASK.DST (buffer DST) runs, in range, with MASKF set and the slice holding
values, it completes with slice byte i XORed with MK[(M_OFF + i) mod 4], no other byte changed, STATUS OK, RES_MASKED = M_N,
the other counts 0, and nothing else changed. -/
def Obligations.MaskXorsTheSlice : Prop :=
  ∀ (buf : Buf) (s : State), s.fault = 0 → maskInRange buf s → maskFlag s.frameH1 = true →
    memWritten (bufMem buf s) s.mStart.toNat s.mN.toNat →
    ∃ m, exec (maskOf buf) s =
        .next { setBufMem buf m s with status := 0x00, resWritten := 0, resConsumed := 0, resMasked := s.mN } ∧
      (∀ i b, i < s.mN.toNat → memRead (bufMem buf s) (s.mStart.toNat + i) = some b →
        memRead m (s.mStart.toNat + i) = some (b ^^^ keyLane s.key ((s.mOff.toNat + i) % 4))) ∧
      ∀ a, a < s.mStart.toNat ∨ s.mStart.toNat + s.mN.toNat ≤ a → memRead m a = memRead (bufMem buf s) a

/-- R120: with MASKF = 0 MASK.SRC and MASK.DST complete, whatever the slice holds, changing STATUS and the counts alone. -/
def Obligations.MaskWithoutTheFlagTouchesNoByte : Prop :=
  ∀ (buf : Buf) (s : State), s.fault = 0 → maskInRange buf s → maskFlag s.frameH1 = false →
    exec (maskOf buf) s = .next { s with status := 0x00, resWritten := 0, resConsumed := 0, resMasked := s.mN }

/-- R122: two MASK commands on the same buffer, slice, M_OFF, MASKF and key, with those bytes not written between them, leave
the slice as it was before the first. -/
def Obligations.MaskTwiceRestoresTheSlice : Prop :=
  ∀ (buf : Buf) (s t u : State), s.fault = 0 → exec (maskOf buf) s = .next t → t.fault = 0 →
    u.fault = 0 → maskInRange buf u → u.mStart = s.mStart → u.mN = s.mN → u.mOff = s.mOff →
    maskFlag u.frameH1 = maskFlag s.frameH1 → u.key = s.key →
    (∀ x, s.mStart.toNat ≤ x → x < s.mStart.toNat + s.mN.toNat →
      memRead (bufMem buf u) x = memRead (bufMem buf t) x) →
    ∃ v, exec (maskOf buf) u = .next v ∧
      ∀ x, s.mStart.toNat ≤ x → x < s.mStart.toNat + s.mN.toNat →
        memRead (bufMem buf v) x = memRead (bufMem buf s) x

/-- R123: a slice masked in two commands, the second at the cumulative offset, gives the buffer one command gives; for any
split, an empty part included. -/
def Obligations.MaskInTwoPartsIsMaskInOne : Prop :=
  ∀ (buf : Buf) (s t : State) (a n1 n2 off : Word), s.fault = 0 → n1.toNat + n2.toNat < 2 ^ 64 →
    exec (maskOf buf) { s with mStart := a, mN := n1 + n2, mOff := off } = .next t → t.fault = 0 →
    ∃ t1 t2, exec (maskOf buf) { s with mStart := a, mN := n1, mOff := off } = .next t1 ∧
      exec (maskOf buf) { t1 with mStart := a + n1, mN := n2, mOff := off + n1 } = .next t2 ∧
      t2.fault = 0 ∧ bufMem buf t2 = bufMem buf t

/-- R123: the two parts need not stand at adjacent addresses, nor in one buffer: what M_OFF carries is the payload position.
A payload masked whole, and its two parts masked in states of their own with the first at the same offset and the second at
the offset past it, give the same bytes. -/
def Obligations.MaskFollowsThePayloadPosition : Prop :=
  ∀ (b b1 b2 : Buf) (s u1 u2 : State) (xs ys : List Byte),
    s.fault = 0 → u1.fault = 0 → u2.fault = 0 →
    maskInRange b s → maskInRange b1 u1 → maskInRange b2 u2 →
    s.mN.toNat = xs.length + ys.length → holdsAt (bufMem b s) s.mStart.toNat (xs ++ ys) →
    u1.mN.toNat = xs.length → holdsAt (bufMem b1 u1) u1.mStart.toNat xs → u1.mOff = s.mOff →
    u2.mN.toNat = ys.length → holdsAt (bufMem b2 u2) u2.mStart.toNat ys →
    u2.mOff = s.mOff + BitVec.ofNat 64 xs.length →
    u1.key = s.key → u2.key = s.key →
    maskFlag u1.frameH1 = maskFlag s.frameH1 → maskFlag u2.frameH1 = maskFlag s.frameH1 →
    ∃ t v1 v2 zs ws, exec (maskOf b) s = .next t ∧ exec (maskOf b1) u1 = .next v1 ∧ exec (maskOf b2) u2 = .next v2 ∧
      zs.length = xs.length ∧ ws.length = ys.length ∧
      holdsAt (bufMem b t) s.mStart.toNat (zs ++ ws) ∧
      holdsAt (bufMem b1 v1) u1.mStart.toNat zs ∧ holdsAt (bufMem b2 v2) u2.mStart.toNat ws

/-- R124: the lane is the same whether M_OFF + i is taken over the integers or modulo 2^64, and comes from the two low bits of
each. -/
def Obligations.MaskLaneNeedsTwoLowBits : Prop :=
  ∀ (off : Word) (i : Nat),
    lane off.toNat i = (off + BitVec.ofNat 64 i).toNat % 4 ∧
    lane off.toNat i = ((off.extractLsb' 0 2).toNat + i % 4) % 4

/-! ### The host port -/

/-- R34, R35: the fourteen read-write registers by number, width and field: a host write of a value of the width stores it
in that field, in a halted block too, and changes nothing else; read back, the register holds the value and every other
register what it held. -/
def Obligations.HostWriteStoresInOneRegister : Prop :=
  ∀ (s : State) (rest : List HostAction) (value : Nat) (r : Reg) (number : Byte) (width : Nat) (t : State),
    (r, number, width, t) ∈ writeTable value s →
    regNumber r = number ∧ regWidth r = width ∧ hostWritable r = true ∧
    (value < 2 ^ width → s.actions = .set number value :: rest →
      step s = .next { t with actions := rest } ∧
      (readReg r t).toNat = value ∧ ∀ r', r' ≠ r → readReg r' t = readReg r' s)

/-- R34, R35, R60, R183: the nineteen readable registers by number and field: a host read gives back the field's value, an
EXPECT whether it is the value expected, and neither changes anything. How the answer is given back, and that STATUS is given
and expected as its zero-extended bit pattern and not as R30's signed number, is the model's choice (log entries 10 and
15). -/
def Obligations.HostReadOfARegisterChangesNothing : Prop :=
  ∀ (s : State) (rest : List HostAction) (r : Reg) (number : Byte) (v : Word),
    (r, number, v) ∈ readTable s →
    regNumber r = number ∧ hostReadable r = true ∧ readReg r s = v ∧
    (s.actions = .get number :: rest → step s = .next { s with actions := rest, replies := .value v :: s.replies }) ∧
    (∀ expected, s.actions = .expectReg number expected :: rest →
      step s = .next { s with actions := rest, replies := .checked (decide (v.toNat = expected)) :: s.replies })

/-- R35, R94: the accesses the model refuses, by name: a write, a read or an EXPECT of an unassigned register number, a write
of a read-only register, a read or an EXPECT of CMD, a value wider than the register, whose widths are those of R34. The
order in which the refusals are asked is the model's choice (log entry 11). -/
def Obligations.InadmissibleHostAccessIsRefused : Prop :=
  ∀ (s : State) (rest : List HostAction) (reg : Byte) (value : Nat),
    (reg = 0x06 ∨ reg = 0x07 ∨ reg = 0x0F ∨ 0x17 ≤ reg.toNat → s.actions = .set reg value :: rest →
      step s = .refused (.unassignedRegister reg)) ∧
    (reg = 0x06 ∨ reg = 0x07 ∨ reg = 0x0F ∨ 0x17 ≤ reg.toNat →
      s.actions = .get reg :: rest ∨ s.actions = .expectReg reg value :: rest →
      step s = .refused (.unassignedRegister reg)) ∧
    (0x01 ≤ reg.toNat → reg.toNat ≤ 0x05 → s.actions = .set reg value :: rest →
      step s = .refused (.readOnlyRegister reg)) ∧
    (reg = 0x00 → s.actions = .get reg :: rest ∨ s.actions = .expectReg reg value :: rest →
      step s = .refused (.writeOnlyRegister reg)) ∧
    (reg ∈ [0x00#8, 0x08#8, 0x09#8, 0x0B#8, 0x0C#8, 0x0D#8, 0x0E#8] → 2 ^ 8 ≤ value →
      s.actions = .set reg value :: rest → step s = .refused (.valueTooWide reg value)) ∧
    (reg ∈ [0x0A#8, 0x10#8, 0x11#8, 0x12#8, 0x13#8, 0x14#8, 0x15#8, 0x16#8] → 2 ^ 64 ≤ value →
      s.actions = .set reg value :: rest → step s = .refused (.valueTooWide reg value))

/-- R94, R183: POKE of bytes that all have a place in the buffer writes them and changes nothing else. -/
def Obligations.PokeWritesTheBytes : Prop :=
  ∀ (s : State) (rest : List HostAction) (buf : Buf) (addr : Nat) (bytes : List Byte),
    addr + bytes.length ≤ (bufSize buf s).toNat → s.actions = .poke buf addr bytes :: rest →
    ∃ m, step s = .next { setBufMem buf m s with actions := rest } ∧ holdsAt m addr bytes ∧
      sameOutside (bufMem buf s) m addr bytes.length

/-- R94, R183: a host read of buffer bytes that hold values gives them back, an EXPECT of them gives back whether they are the
ones expected, and neither changes anything. How they are given back is the model's choice (log entry 10). -/
def Obligations.HostReadOfBufferBytesChangesNothing : Prop :=
  (∀ (s : State) (rest : List HostAction) (buf : Buf) (addr : Nat) (bytes : List Byte),
    addr + bytes.length ≤ (bufSize buf s).toNat → holdsAt (bufMem buf s) addr bytes →
    s.actions = .peek buf addr bytes.length :: rest →
    step s = .next { s with actions := rest, replies := .bytes bytes :: s.replies }) ∧
  (∀ (s : State) (rest : List HostAction) (buf : Buf) (addr : Nat) (bytes expected : List Byte),
    addr + bytes.length ≤ (bufSize buf s).toNat → holdsAt (bufMem buf s) addr bytes → expected.length = bytes.length →
    s.actions = .expectBuf buf addr expected :: rest →
    step s = .next { s with actions := rest, replies := .checked (decide (bytes = expected)) :: s.replies })

/-- R25, R27, R50, R40: a POKE, a host read or an EXPECT of at least one byte that leaves the buffer, and a host read or an
EXPECT inside it that meets a byte that holds no value, stop with the model fault that names the first such address. That
these accesses fault, and which address is named, is the model's reading (log entries 8 and 9). -/
def Obligations.HostAccessOutsideABufferFaults : Prop :=
  ∀ (s : State) (rest : List HostAction) (buf : Buf) (addr : Nat),
    (∀ bytes, bytes ≠ [] → (bufSize buf s).toNat < addr + bytes.length →
      s.actions = .poke buf addr bytes :: rest ∨ s.actions = .expectBuf buf addr bytes :: rest →
      step s = .fault (.noSuchByte buf (max addr (bufSize buf s).toNat))) ∧
    (∀ n, n ≠ 0 → (bufSize buf s).toNat < addr + n → s.actions = .peek buf addr n :: rest →
      step s = .fault (.noSuchByte buf (max addr (bufSize buf s).toNat))) ∧
    (∀ n x, addr + n ≤ (bufSize buf s).toNat → addr ≤ x → x < addr + n → memRead (bufMem buf s) x = none →
      (∀ y, addr ≤ y → y < x → memRead (bufMem buf s) y ≠ none) → s.actions = .peek buf addr n :: rest →
      step s = .fault (.unwrittenByte buf x)) ∧
    (∀ (bytes : List Byte) (x : Nat), addr + bytes.length ≤ (bufSize buf s).toNat → addr ≤ x → x < addr + bytes.length →
      memRead (bufMem buf s) x = none → (∀ y, addr ≤ y → y < x → memRead (bufMem buf s) y ≠ none) →
      s.actions = .expectBuf buf addr bytes :: rest → step s = .fault (.unwrittenByte buf x))

/-- R95: what the pseudo-instructions come to, each run for as many steps as it has host actions and one for its expansion
(log entry 12). -/
def Obligations.PseudoInstructionsDoTheirActions : Prop :=
  ∀ (s : State) (rest : List HostAction),
    (∀ bytes, s.srcLen.toNat + bytes.length ≤ s.srcMax.toNat → s.actions = .feed bytes :: rest →
      Host.Core.run core 3 s = .next { fed bytes s with actions := rest }) ∧
    (∀ n, s.rcur.toNat + n < 2 ^ 64 → s.actions = .skip n :: rest →
      Host.Core.run core 2 s = .next { s with rcur := s.rcur + BitVec.ofNat 64 n, actions := rest }) ∧
    (∀ bytes, s.wcur.toNat ≤ s.dstMax.toNat → bytes.length = s.wcur.toNat → holdsAt s.dst 0 bytes →
      s.actions = .drain :: rest →
      Host.Core.run core 3 s =
        .next { s with wcur := 0, actions := rest, replies := .bytes bytes :: s.replies }) ∧
    (∀ (buf : Buf) (start n off : Word), s.actions = .maskAt buf start.toNat n.toNat off.toNat :: rest →
      Host.Core.run core 5 s =
        exec (maskOf buf) { s with mStart := start, mN := n, mOff := off, actions := rest })

/-! ### Whole-machine rules -/

/-- R25, R27, R29, R34 ("written by the block"), R100, R104, R120: what each instruction may write. No instruction writes
SRC_LEN, CAP or the MASK operands; only DECODE writes FRAME_LEN, the key and RCUR; only ENCODE writes WCUR; only ENCODE (its
bits 6:0) and DECODE write FRAME_H1; of the commands only DECODE writes FRAME_H0; only MASK.SRC writes SRC; only ENCODE and
MASK.DST write DST. That a frame opcode row is an instruction that writes FRAME_H0, and writes no result and no fault, is the
model's reading (log entry 1): R34 names no such writer. The sizes and the host's side are never written. -/
def Obligations.InstructionsWriteOnlyTheirRegisters : Prop :=
  ∀ (i : Instr) (s t : State), exec i s = .next t →
    (t.srcLen = s.srcLen ∧ t.cap = s.cap ∧ t.mStart = s.mStart ∧ t.mN = s.mN ∧ t.mOff = s.mOff) ∧
    (t.srcMax = s.srcMax ∧ t.dstMax = s.dstMax ∧ t.actions = s.actions ∧ t.replies = s.replies) ∧
    (i ≠ .decode → t.frameLen = s.frameLen ∧ t.key = s.key ∧ t.rcur = s.rcur) ∧
    (i ≠ .encode → t.wcur = s.wcur) ∧
    (i ≠ .encode → i ≠ .decode → t.frameH1 = s.frameH1) ∧
    (i = .encode → maskFlag t.frameH1 = maskFlag s.frameH1) ∧
    (i ≠ .decode → encodePort i = 0x00 → t.frameH0 = s.frameH0) ∧
    (i ≠ .maskSrc → t.src = s.src) ∧
    (i ≠ .encode → i ≠ .maskDst → t.dst = s.dst) ∧
    (encodePort i = 0x08 → t.status = s.status ∧ t.resWritten = s.resWritten ∧ t.resConsumed = s.resConsumed ∧
      t.resMasked = s.resMasked ∧ t.fault = s.fault ∧ t.draws = s.draws)

/-- R26, R28, R58, R61: no instruction moves a cursor back; one that moves RCUR or WCUR moves it over the bytes it counts, as
many as a header has, and no further than SRC_LEN or CAP. -/
def Obligations.CursorsOnlyAdvance : Prop :=
  ∀ (i : Instr) (s t : State), exec i s = .next t →
    s.rcur.toNat ≤ t.rcur.toNat ∧ s.wcur.toNat ≤ t.wcur.toNat ∧
    (t.rcur ≠ s.rcur → t.rcur.toNat ≤ s.srcLen.toNat ∧ t.rcur.toNat = s.rcur.toNat + t.resConsumed.toNat ∧
      headerCount t.resConsumed) ∧
    (t.wcur ≠ s.wcur → t.wcur.toNat ≤ s.cap.toNat ∧ t.wcur.toNat = s.wcur.toNat + t.resWritten.toNat ∧
      headerCount t.resWritten)

/-- Every step keeps both buffers in canonical form and their bytes at addresses they have (R25, R27, R51, R52), and the sizes
as they are (R4). -/
def Obligations.EveryStepKeepsTheBuffersSound : Prop :=
  ∀ s t : State, buffersSound s → step s = .next t → buffersSound t ∧ t.srcMax = s.srcMax ∧ t.dstMax = s.dstMax

/-- Every step keeps the results sound: at most one FAULT bit, RANGE or ILLCMD (R32, R148); STATUS one of the three codes the
block raises (R141, R144, R145); at most one count not 0, and none but with OK (R31, R140); header counts of 0, 2, 4, 6, 8,
10 or 14 (R58). -/
def Obligations.EveryStepKeepsTheResultsSound : Prop :=
  ∀ s t : State, resultsSound s → step s = .next t → resultsSound t

/-- Both invariants hold after reset. -/
def Obligations.ResetMeetsBothInvariants : Prop :=
  buffersSound State.reset ∧ resultsSound State.reset
end

