-- ==== Sys2Proof/Laws/Memory.lean ====
section
/-! SUPPORT. The laws of the buffers: a read after a write, the canonical form, and the byte-sequence operations, each with
one lemma that says everything it can do. -/

namespace Sys2Proof.Machine

@[simp] theorem memRead_nil (a : Nat) : memRead [] a = none := rfl

/-- A read after a write: the byte written at its address, and every other address as before. -/
theorem memRead_memWrite (m : Memory) (a x : Nat) (b : Byte) :
    memRead (memWrite m a b) x = if x = a then some b else memRead m x := by
  induction m with
  | nil => simp [memWrite, memRead, eq_comm (a := a)]
  | cons c m ih =>
    obtain ⟨k, v⟩ := c
    simp only [memWrite]
    split
    · simp only [memRead, eq_comm (a := a)]
    · split
      · subst_vars
        by_cases h : x = k
        · simp [memRead, h]
        · simp [memRead, h, Ne.symm h]
      · by_cases h : k = x
        · subst h
          have : ¬ k = a := by omega
          simp [memRead, this]
        · simp [memRead, h, ih]

/-- The first address of a written buffer: the old one or the one written. -/
theorem memWf_cons_memWrite (k a : Nat) (v b : Byte) (m : Memory) (h : Memory.wf ((k, v) :: m) = true) (hk : k < a) :
    Memory.wf ((k, v) :: memWrite m a b) = true := by
  induction m generalizing k v with
  | nil => simp [memWrite, Memory.wf, hk]
  | cons c m ih =>
    obtain ⟨k', v'⟩ := c
    simp only [Memory.wf, Bool.and_eq_true, decide_eq_true_eq] at h
    simp only [memWrite]
    split
    · rename_i hlt
      simp [Memory.wf, hk, hlt, h.2]
    · split
      · subst_vars
        have h2 := h.2
        cases m with
        | nil => simp [Memory.wf, hk]
        | cons c m => simpa [Memory.wf, hk] using h2
      · have := ih k' v' h.2 (by omega)
        simp [Memory.wf, h.1, this]

/-- A write keeps the canonical form. -/
theorem memWf_memWrite (m : Memory) (a : Nat) (b : Byte) (h : Memory.wf m = true) : Memory.wf (memWrite m a b) = true := by
  cases m with
  | nil => rfl
  | cons c m =>
    obtain ⟨k, v⟩ := c
    simp only [memWrite]
    split
    · rename_i hlt
      simp [Memory.wf, hlt, h]
    · split
      · subst_vars
        cases m with
        | nil => rfl
        | cons c m => simpa [Memory.wf] using h
      · exact memWf_cons_memWrite k a v b m h (by omega)

/-- A read after a sequence of bytes is written from `a` up. -/
theorem memRead_memWriteBytes (m : Memory) (a x : Nat) (bs : List Byte) :
    memRead (memWriteBytes m a bs) x = if a ≤ x ∧ x < a + bs.length then bs[x - a]? else memRead m x := by
  induction bs generalizing m a with
  | nil => simp [memWriteBytes]
  | cons b bs ih =>
    simp only [memWriteBytes, ih, memRead_memWrite, List.length_cons]
    by_cases h : x = a
    · subst h
      simp
    · by_cases h' : a + 1 ≤ x ∧ x < a + 1 + bs.length
      · have e : x - a = (x - (a + 1)) + 1 := by omega
        have : a ≤ x ∧ x < a + (bs.length + 1) := by omega
        simp [h', this, e]
      · have : ¬ (a ≤ x ∧ x < a + (bs.length + 1)) := by omega
        rw [if_neg h', if_neg this, if_neg h]

theorem memWf_memWriteBytes (m : Memory) (a : Nat) (bs : List Byte) (h : Memory.wf m = true) :
    Memory.wf (memWriteBytes m a bs) = true := by
  induction bs generalizing m a with
  | nil => exact h
  | cons b bs ih => exact ih _ _ (memWf_memWrite m a b h)

/-- Writing below a bound keeps every listed address below it. -/
theorem memBelow_memWriteBytes (m : Memory) (a bound : Nat) (bs : List Byte) (h : memBelow m bound)
    (hb : bs.length ≠ 0 → a + bs.length ≤ bound) : memBelow (memWriteBytes m a bs) bound := by
  intro x hx
  rw [memRead_memWriteBytes] at hx
  split at hx
  · have : bs.length ≠ 0 := by omega
    have := hb this
    omega
  · exact h x hx

theorem memWriteBytes_append (m : Memory) (a : Nat) (xs ys : List Byte) :
    memWriteBytes m a (xs ++ ys) = memWriteBytes (memWriteBytes m a xs) (a + xs.length) ys := by
  induction xs generalizing m a with
  | nil => rfl
  | cons x xs ih =>
    simp only [List.cons_append, memWriteBytes, ih, List.length_cons]
    congr 1
    omega

/-- The written bytes stand from `a` up. -/
theorem holdsAt_memWriteBytes (m : Memory) (a : Nat) (bs : List Byte) : holdsAt (memWriteBytes m a bs) a bs := by
  intro j hj
  rw [memRead_memWriteBytes]
  simp [hj]

/-- Every other address reads as before. -/
theorem sameOutside_memWriteBytes (m : Memory) (a n : Nat) (bs : List Byte) (hn : bs.length = n) :
    sameOutside m (memWriteBytes m a bs) a n := by
  intro x hx
  rw [memRead_memWriteBytes, if_neg (by omega)]

theorem memReadByte_ok {buf : Buf} {m : Memory} {a : Nat} {b : Byte} :
    memReadByte buf m a = .ok b ↔ memRead m a = some b := by
  unfold memReadByte
  cases memRead m a <;> simp

theorem memReadByte_error {buf : Buf} {m : Memory} {a : Nat} {f : Fault} :
    memReadByte buf m a = .error f ↔ memRead m a = none ∧ f = .unwrittenByte buf a := by
  unfold memReadByte
  cases memRead m a <;> simp [eq_comm]

theorem holdsAt_nil (m : Memory) (a : Nat) : holdsAt m a [] := by
  intro j hj
  simp at hj

theorem holdsAt_cons (m : Memory) (a : Nat) (b : Byte) (bs : List Byte) :
    holdsAt m a (b :: bs) ↔ memRead m a = some b ∧ holdsAt m (a + 1) bs := by
  constructor
  · intro h
    refine ⟨by simpa using h 0 (by simp), fun j hj => ?_⟩
    have := h (j + 1) (by simpa using hj)
    simpa [Nat.add_assoc, Nat.add_comm 1 j] using this
  · rintro ⟨h0, h1⟩ j hj
    cases j with
    | zero => simpa using h0
    | succ j =>
      have := h1 j (by simpa using hj)
      simpa [Nat.add_assoc, Nat.add_comm 1 j] using this

theorem holdsAt_append (m : Memory) (a : Nat) (xs ys : List Byte) :
    holdsAt m a (xs ++ ys) ↔ holdsAt m a xs ∧ holdsAt m (a + xs.length) ys := by
  induction xs generalizing a with
  | nil => simp [holdsAt_nil]
  | cons x xs ih =>
    simp only [List.cons_append, holdsAt_cons, ih, List.length_cons, and_assoc]
    rw [show a + 1 + xs.length = a + (xs.length + 1) by omega]

/-- Everything `memReadBytes` can answer with bytes: they are `n` bytes that stand from `a` up. -/
theorem memReadBytes_ok {buf : Buf} {m : Memory} {a n : Nat} {bs : List Byte} :
    memReadBytes buf m a n = .ok bs ↔ bs.length = n ∧ holdsAt m a bs := by
  induction n generalizing a bs with
  | zero =>
    constructor
    · intro h
      cases h
      exact ⟨rfl, holdsAt_nil m a⟩
    · rintro ⟨h, -⟩
      rw [List.length_eq_zero_iff.1 h]
      rfl
  | succ n ih =>
    simp only [memReadBytes]
    constructor
    · intro h
      split at h
      · cases h
      · rename_i b hb
        split at h
        · cases h
        · rename_i bs' hbs
          cases h
          obtain ⟨hl, hh⟩ := ih.1 hbs
          exact ⟨by simp [hl], (holdsAt_cons m a b bs').2 ⟨memReadByte_ok.1 hb, hh⟩⟩
    · rintro ⟨hl, hh⟩
      obtain _ | ⟨b, bs'⟩ := bs
      · simp at hl
      · obtain ⟨h0, h1⟩ := (holdsAt_cons m a b bs').1 hh
        have hr := memReadByte_ok (buf := buf).2 h0
        have hs := ih.2 ⟨by simpa using hl, h1⟩
        simp [hr, hs]

/-- Everything `memReadBytes` can fault with: a byte of the range that holds no value. -/
theorem memReadBytes_error {buf : Buf} {m : Memory} {a n : Nat} {f : Fault}
    (h : memReadBytes buf m a n = .error f) :
    ∃ x, a ≤ x ∧ x < a + n ∧ memRead m x = none ∧ f = .unwrittenByte buf x := by
  induction n generalizing a with
  | zero => cases h
  | succ n ih =>
    simp only [memReadBytes] at h
    split at h
    · rename_i f' hb
      cases h
      obtain ⟨h0, hf⟩ := memReadByte_error.1 hb
      exact ⟨a, by omega, by omega, h0, hf⟩
    · split at h
      · rename_i f' hbs
        cases h
        obtain ⟨x, h1, h2, h3, h4⟩ := ih hbs
        exact ⟨x, by omega, by omega, h3, h4⟩
      · cases h

/-- A range that meets a byte that holds no value faults with the first such address. -/
theorem memReadBytes_first_unwritten {buf : Buf} {m : Memory} {a n x : Nat} (h1 : a ≤ x) (h2 : x < a + n)
    (hx : memRead m x = none) (hy : ∀ y, a ≤ y → y < x → memRead m y ≠ none) :
    memReadBytes buf m a n = .error (.unwrittenByte buf x) := by
  induction n generalizing a with
  | zero => omega
  | succ n ih =>
    obtain rfl | hax := Nat.eq_or_lt_of_le h1
    · simp only [memReadBytes, memReadByte_error.2 ⟨hx, rfl⟩]
    · obtain ⟨b, hb⟩ := Option.ne_none_iff_exists'.1 (hy a (Nat.le_refl a) hax)
      simp only [memReadBytes, memReadByte_ok.2 hb, ih hax (by omega) fun y y1 => hy y (by omega)]

/-- A range whose bytes all hold values is read. -/
theorem memReadBytes_of_written {m : Memory} {a n : Nat} (buf : Buf) (h : memWritten m a n) :
    ∃ bs, memReadBytes buf m a n = .ok bs := by
  cases hr : memReadBytes buf m a n with
  | ok bs => exact ⟨bs, rfl⟩
  | error f =>
    obtain ⟨x, h1, h2, h3, -⟩ := memReadBytes_error hr
    exact absurd h3 (h x h1 h2)

/-- The buffers after reset are in canonical form. -/
theorem reset_memWf : Memory.wf State.reset.src = true ∧ Memory.wf State.reset.dst = true := ⟨rfl, rfl⟩

end Sys2Proof.Machine
end

