-- ==== Sys2Proof/Laws/Operands.lean ====
section
/-! SUPPORT. Small lemmas of the operand forms: header byte 1 and its fields, the big-endian number, the rolling key. -/

namespace Sys2Proof.Machine

@[simp] theorem maskFlag_withLenInd (b1 : Byte) (ind : BitVec 7) : maskFlag (withLenInd b1 ind) = maskFlag b1 := by
  unfold withLenInd maskFlag
  rw [BitVec.getLsbD_append]
  simp

@[simp] theorem lenIndField_withLenInd (b1 : Byte) (ind : BitVec 7) : lenIndField (withLenInd b1 ind) = ind := by
  unfold withLenInd lenIndField
  ext i hi
  rw [BitVec.getElem_extractLsb', BitVec.getLsbD_append]
  simp [hi]

/-- Header byte 1 is its two fields (R72). -/
theorem withLenInd_lenIndField (b1 : Byte) : withLenInd b1 (lenIndField b1) = b1 := by
  revert b1
  decide

@[simp] theorem withLenInd_withLenInd (b1 : Byte) (i j : BitVec 7) :
    withLenInd (withLenInd b1 i) j = withLenInd b1 j := by
  unfold withLenInd
  rw [show maskFlag (BitVec.ofBool (maskFlag b1) ++ i) = maskFlag b1 from maskFlag_withLenInd b1 i]

/-- An indicator that announces no extended length is the length itself, at most 125. -/
theorem ext_cases (ind : BitVec 7) :
    (ind = 126 ∧ ext ind = 2) ∨ (ind = 127 ∧ ext ind = 8) ∨ (ind.toNat ≤ 125 ∧ ext ind = 0) := by
  revert ind
  decide

theorem hsize_pos (b1 : Byte) : 2 ≤ hsize b1 := by
  unfold hsize
  omega

theorem hsize_le (b1 : Byte) : hsize b1 ≤ 14 := by
  revert b1
  decide

@[simp] theorem keyBytes_length (key : Key) : (keyBytes key).length = 4 := rfl

theorem keyLane_mod (key : Key) (n : Nat) : keyLane key (n % 4) = keyLane key n := by
  simp [keyLane]

@[simp] theorem xorSlice_length (key : Key) (off : Nat) (bs : List Byte) : (xorSlice key off bs).length = bs.length := by
  induction bs generalizing off with
  | nil => rfl
  | cons b bs ih => simp [xorSlice, ih]

/-- Slice byte i is XORed with the key byte of lane (off + i) mod 4. -/
theorem xorSlice_getElem? (key : Key) (off i : Nat) (bs : List Byte) :
    (xorSlice key off bs)[i]? = bs[i]?.map (fun b => b ^^^ keyLane key ((off + i) % 4)) := by
  induction bs generalizing off i with
  | nil => simp [xorSlice]
  | cons b bs ih =>
    cases i with
    | zero => simp [xorSlice, lane]
    | succ i =>
      simp only [xorSlice, List.getElem?_cons_succ, ih]
      rw [show off + 1 + i = off + (i + 1) by omega]

theorem xorSlice_append (key : Key) (off : Nat) (xs ys : List Byte) :
    xorSlice key off (xs ++ ys) = xorSlice key off xs ++ xorSlice key (off + xs.length) ys := by
  induction xs generalizing off with
  | nil => rfl
  | cons x xs ih =>
    simp only [List.cons_append, xorSlice, ih, List.length_cons]
    rw [show off + 1 + xs.length = off + (xs.length + 1) by omega]

/-- The offset counts mod 4 only. -/
theorem xorSlice_congr (key : Key) (off off' : Nat) (bs : List Byte) (h : off % 4 = off' % 4) :
    xorSlice key off bs = xorSlice key off' bs := by
  induction bs generalizing off off' with
  | nil => rfl
  | cons b bs ih => simp only [xorSlice, lane, Nat.add_zero, h, ih (off + 1) (off' + 1) (by omega)]

/-- XOR with one byte twice gives the byte back. -/
theorem byte_xor_xor (b k : Byte) : b ^^^ k ^^^ k = b := by
  rw [BitVec.xor_assoc, BitVec.xor_self, BitVec.xor_zero]

/-- The rolling XOR is its own inverse. -/
theorem xorSlice_xorSlice (key : Key) (off : Nat) (bs : List Byte) : xorSlice key off (xorSlice key off bs) = bs := by
  induction bs generalizing off with
  | nil => rfl
  | cons b bs ih => simp only [xorSlice, ih, byte_xor_xor]

/-- `BE16` spells its value in 2 bytes. -/
theorem beNat_be16 (v : BitVec 16) : beNat (be16 v) = v.toNat := by
  have := v.isLt
  simp only [be16, beNat, List.foldl_cons, List.foldl_nil, BitVec.extractLsb'_toNat, Nat.shiftRight_eq_div_pow]
  omega

/-- `BE64` spells its value in 8 bytes. -/
theorem beNat_be64 (v : Word) : beNat (be64 v) = v.toNat := by
  have := v.isLt
  simp only [be64, beNat, List.foldl_cons, List.foldl_nil, BitVec.extractLsb'_toNat, Nat.shiftRight_eq_div_pow]
  omega

@[simp] theorem be16_length (v : BitVec 16) : (be16 v).length = 2 := rfl

@[simp] theorem be64_length (v : Word) : (be64 v).length = 8 := rfl

/-- The three cases of the shortest spelling (R76). -/
theorem lenind_cases (len : Word) :
    (len.toNat < 126 ∧ lenind len = len.extractLsb' 0 7 ∧ (lenind len).toNat = len.toNat ∧ extBytes len = [] ∧
      ext (lenind len) = 0) ∨
    (126 ≤ len.toNat ∧ len.toNat < 65536 ∧ lenind len = 126 ∧ extBytes len = be16 (len.extractLsb' 0 16) ∧
      ext (lenind len) = 2) ∨
    (65536 ≤ len.toNat ∧ lenind len = 127 ∧ extBytes len = be64 len ∧ ext (lenind len) = 8) := by
  unfold lenind extBytes
  by_cases h1 : len.toNat < 126
  · left
    have hn : (len.extractLsb' 0 7).toNat = len.toNat := by
      rw [BitVec.extractLsb'_toNat]
      simp
      omega
    rcases ext_cases (len.extractLsb' 0 7) with ⟨h, -⟩ | ⟨h, -⟩ | ⟨-, h⟩
    · rw [h] at hn
      simp at hn
      omega
    · rw [h] at hn
      simp at hn
      omega
    · simp [h1, hn, h]
  · by_cases h2 : len.toNat < 65536
    · right; left
      simp [h1, h2, ext]
      omega
    · right; right
      simp [h1, h2, ext]
      omega

/-- The extended length has the size the indicator announces. -/
theorem extBytes_length (len : Word) : (extBytes len).length = ext (lenind len) := by
  rcases lenind_cases len with ⟨-, -, -, h, h'⟩ | ⟨-, -, -, h, h'⟩ | ⟨-, -, h, h'⟩ <;> rw [h, h'] <;> rfl

end Sys2Proof.Machine
end

