-- ==== Sys2Proof/Laws/State.lean ====
section
/-! SUPPORT. One lemma per field per named update of the state, so that no proof unfolds a record update. -/

namespace Sys2Proof.Machine

/-! ### loadHeader0 -/

@[simp] theorem loadHeader0_frameH0 (b0 : Byte) (s : State) : (loadHeader0 b0 s).frameH0 = b0 := rfl
@[simp] theorem loadHeader0_frameH1 (b0 : Byte) (s : State) : (loadHeader0 b0 s).frameH1 = s.frameH1 := rfl
@[simp] theorem loadHeader0_frameLen (b0 : Byte) (s : State) : (loadHeader0 b0 s).frameLen = s.frameLen := rfl
@[simp] theorem loadHeader0_key (b0 : Byte) (s : State) : (loadHeader0 b0 s).key = s.key := rfl
@[simp] theorem loadHeader0_src (b0 : Byte) (s : State) : (loadHeader0 b0 s).src = s.src := rfl
@[simp] theorem loadHeader0_srcLen (b0 : Byte) (s : State) : (loadHeader0 b0 s).srcLen = s.srcLen := rfl
@[simp] theorem loadHeader0_rcur (b0 : Byte) (s : State) : (loadHeader0 b0 s).rcur = s.rcur := rfl
@[simp] theorem loadHeader0_dst (b0 : Byte) (s : State) : (loadHeader0 b0 s).dst = s.dst := rfl
@[simp] theorem loadHeader0_cap (b0 : Byte) (s : State) : (loadHeader0 b0 s).cap = s.cap := rfl
@[simp] theorem loadHeader0_wcur (b0 : Byte) (s : State) : (loadHeader0 b0 s).wcur = s.wcur := rfl
@[simp] theorem loadHeader0_mStart (b0 : Byte) (s : State) : (loadHeader0 b0 s).mStart = s.mStart := rfl
@[simp] theorem loadHeader0_mN (b0 : Byte) (s : State) : (loadHeader0 b0 s).mN = s.mN := rfl
@[simp] theorem loadHeader0_mOff (b0 : Byte) (s : State) : (loadHeader0 b0 s).mOff = s.mOff := rfl
@[simp] theorem loadHeader0_status (b0 : Byte) (s : State) : (loadHeader0 b0 s).status = s.status := rfl
@[simp] theorem loadHeader0_resWritten (b0 : Byte) (s : State) : (loadHeader0 b0 s).resWritten = s.resWritten := rfl
@[simp] theorem loadHeader0_resConsumed (b0 : Byte) (s : State) : (loadHeader0 b0 s).resConsumed = s.resConsumed := rfl
@[simp] theorem loadHeader0_resMasked (b0 : Byte) (s : State) : (loadHeader0 b0 s).resMasked = s.resMasked := rfl
@[simp] theorem loadHeader0_fault (b0 : Byte) (s : State) : (loadHeader0 b0 s).fault = s.fault := rfl
@[simp] theorem loadHeader0_srcMax (b0 : Byte) (s : State) : (loadHeader0 b0 s).srcMax = s.srcMax := rfl
@[simp] theorem loadHeader0_dstMax (b0 : Byte) (s : State) : (loadHeader0 b0 s).dstMax = s.dstMax := rfl
@[simp] theorem loadHeader0_draws (b0 : Byte) (s : State) : (loadHeader0 b0 s).draws = s.draws := rfl
@[simp] theorem loadHeader0_actions (b0 : Byte) (s : State) : (loadHeader0 b0 s).actions = s.actions := rfl
@[simp] theorem loadHeader0_replies (b0 : Byte) (s : State) : (loadHeader0 b0 s).replies = s.replies := rfl

/-! ### setResult -/

@[simp] theorem setResult_frameH0 (st : Byte) (w c m : Word) (s : State) : (setResult st w c m s).frameH0 = s.frameH0 := rfl
@[simp] theorem setResult_frameH1 (st : Byte) (w c m : Word) (s : State) : (setResult st w c m s).frameH1 = s.frameH1 := rfl
@[simp] theorem setResult_frameLen (st : Byte) (w c m : Word) (s : State) : (setResult st w c m s).frameLen = s.frameLen := rfl
@[simp] theorem setResult_key (st : Byte) (w c m : Word) (s : State) : (setResult st w c m s).key = s.key := rfl
@[simp] theorem setResult_src (st : Byte) (w c m : Word) (s : State) : (setResult st w c m s).src = s.src := rfl
@[simp] theorem setResult_srcLen (st : Byte) (w c m : Word) (s : State) : (setResult st w c m s).srcLen = s.srcLen := rfl
@[simp] theorem setResult_rcur (st : Byte) (w c m : Word) (s : State) : (setResult st w c m s).rcur = s.rcur := rfl
@[simp] theorem setResult_dst (st : Byte) (w c m : Word) (s : State) : (setResult st w c m s).dst = s.dst := rfl
@[simp] theorem setResult_cap (st : Byte) (w c m : Word) (s : State) : (setResult st w c m s).cap = s.cap := rfl
@[simp] theorem setResult_wcur (st : Byte) (w c m : Word) (s : State) : (setResult st w c m s).wcur = s.wcur := rfl
@[simp] theorem setResult_mStart (st : Byte) (w c m : Word) (s : State) : (setResult st w c m s).mStart = s.mStart := rfl
@[simp] theorem setResult_mN (st : Byte) (w c m : Word) (s : State) : (setResult st w c m s).mN = s.mN := rfl
@[simp] theorem setResult_mOff (st : Byte) (w c m : Word) (s : State) : (setResult st w c m s).mOff = s.mOff := rfl
@[simp] theorem setResult_status (st : Byte) (w c m : Word) (s : State) : (setResult st w c m s).status = st := rfl
@[simp] theorem setResult_resWritten (st : Byte) (w c m : Word) (s : State) : (setResult st w c m s).resWritten = w := rfl
@[simp] theorem setResult_resConsumed (st : Byte) (w c m : Word) (s : State) : (setResult st w c m s).resConsumed = c := rfl
@[simp] theorem setResult_resMasked (st : Byte) (w c m : Word) (s : State) : (setResult st w c m s).resMasked = m := rfl
@[simp] theorem setResult_fault (st : Byte) (w c m : Word) (s : State) : (setResult st w c m s).fault = s.fault := rfl
@[simp] theorem setResult_srcMax (st : Byte) (w c m : Word) (s : State) : (setResult st w c m s).srcMax = s.srcMax := rfl
@[simp] theorem setResult_dstMax (st : Byte) (w c m : Word) (s : State) : (setResult st w c m s).dstMax = s.dstMax := rfl
@[simp] theorem setResult_draws (st : Byte) (w c m : Word) (s : State) : (setResult st w c m s).draws = s.draws := rfl
@[simp] theorem setResult_actions (st : Byte) (w c m : Word) (s : State) : (setResult st w c m s).actions = s.actions := rfl
@[simp] theorem setResult_replies (st : Byte) (w c m : Word) (s : State) : (setResult st w c m s).replies = s.replies := rfl

/-! ### commitFrame -/

@[simp] theorem commitFrame_frameH0 (b0 b1 : Byte) (len : Word) (k : Key) (s : State) : (commitFrame b0 b1 len k s).frameH0 = b0 := rfl
@[simp] theorem commitFrame_frameH1 (b0 b1 : Byte) (len : Word) (k : Key) (s : State) : (commitFrame b0 b1 len k s).frameH1 = b1 := rfl
@[simp] theorem commitFrame_frameLen (b0 b1 : Byte) (len : Word) (k : Key) (s : State) : (commitFrame b0 b1 len k s).frameLen = len := rfl
@[simp] theorem commitFrame_key (b0 b1 : Byte) (len : Word) (k : Key) (s : State) : (commitFrame b0 b1 len k s).key = k := rfl
@[simp] theorem commitFrame_src (b0 b1 : Byte) (len : Word) (k : Key) (s : State) : (commitFrame b0 b1 len k s).src = s.src := rfl
@[simp] theorem commitFrame_srcLen (b0 b1 : Byte) (len : Word) (k : Key) (s : State) : (commitFrame b0 b1 len k s).srcLen = s.srcLen := rfl
@[simp] theorem commitFrame_rcur (b0 b1 : Byte) (len : Word) (k : Key) (s : State) : (commitFrame b0 b1 len k s).rcur = s.rcur := rfl
@[simp] theorem commitFrame_dst (b0 b1 : Byte) (len : Word) (k : Key) (s : State) : (commitFrame b0 b1 len k s).dst = s.dst := rfl
@[simp] theorem commitFrame_cap (b0 b1 : Byte) (len : Word) (k : Key) (s : State) : (commitFrame b0 b1 len k s).cap = s.cap := rfl
@[simp] theorem commitFrame_wcur (b0 b1 : Byte) (len : Word) (k : Key) (s : State) : (commitFrame b0 b1 len k s).wcur = s.wcur := rfl
@[simp] theorem commitFrame_mStart (b0 b1 : Byte) (len : Word) (k : Key) (s : State) : (commitFrame b0 b1 len k s).mStart = s.mStart := rfl
@[simp] theorem commitFrame_mN (b0 b1 : Byte) (len : Word) (k : Key) (s : State) : (commitFrame b0 b1 len k s).mN = s.mN := rfl
@[simp] theorem commitFrame_mOff (b0 b1 : Byte) (len : Word) (k : Key) (s : State) : (commitFrame b0 b1 len k s).mOff = s.mOff := rfl
@[simp] theorem commitFrame_status (b0 b1 : Byte) (len : Word) (k : Key) (s : State) : (commitFrame b0 b1 len k s).status = s.status := rfl
@[simp] theorem commitFrame_resWritten (b0 b1 : Byte) (len : Word) (k : Key) (s : State) : (commitFrame b0 b1 len k s).resWritten = s.resWritten := rfl
@[simp] theorem commitFrame_resConsumed (b0 b1 : Byte) (len : Word) (k : Key) (s : State) : (commitFrame b0 b1 len k s).resConsumed = s.resConsumed := rfl
@[simp] theorem commitFrame_resMasked (b0 b1 : Byte) (len : Word) (k : Key) (s : State) : (commitFrame b0 b1 len k s).resMasked = s.resMasked := rfl
@[simp] theorem commitFrame_fault (b0 b1 : Byte) (len : Word) (k : Key) (s : State) : (commitFrame b0 b1 len k s).fault = s.fault := rfl
@[simp] theorem commitFrame_srcMax (b0 b1 : Byte) (len : Word) (k : Key) (s : State) : (commitFrame b0 b1 len k s).srcMax = s.srcMax := rfl
@[simp] theorem commitFrame_dstMax (b0 b1 : Byte) (len : Word) (k : Key) (s : State) : (commitFrame b0 b1 len k s).dstMax = s.dstMax := rfl
@[simp] theorem commitFrame_draws (b0 b1 : Byte) (len : Word) (k : Key) (s : State) : (commitFrame b0 b1 len k s).draws = s.draws := rfl
@[simp] theorem commitFrame_actions (b0 b1 : Byte) (len : Word) (k : Key) (s : State) : (commitFrame b0 b1 len k s).actions = s.actions := rfl
@[simp] theorem commitFrame_replies (b0 b1 : Byte) (len : Word) (k : Key) (s : State) : (commitFrame b0 b1 len k s).replies = s.replies := rfl

/-! ### raiseFault -/

@[simp] theorem raiseFault_frameH0 (bit : Byte) (s : State) : (raiseFault bit s).frameH0 = s.frameH0 := rfl
@[simp] theorem raiseFault_frameH1 (bit : Byte) (s : State) : (raiseFault bit s).frameH1 = s.frameH1 := rfl
@[simp] theorem raiseFault_frameLen (bit : Byte) (s : State) : (raiseFault bit s).frameLen = s.frameLen := rfl
@[simp] theorem raiseFault_key (bit : Byte) (s : State) : (raiseFault bit s).key = s.key := rfl
@[simp] theorem raiseFault_src (bit : Byte) (s : State) : (raiseFault bit s).src = s.src := rfl
@[simp] theorem raiseFault_srcLen (bit : Byte) (s : State) : (raiseFault bit s).srcLen = s.srcLen := rfl
@[simp] theorem raiseFault_rcur (bit : Byte) (s : State) : (raiseFault bit s).rcur = s.rcur := rfl
@[simp] theorem raiseFault_dst (bit : Byte) (s : State) : (raiseFault bit s).dst = s.dst := rfl
@[simp] theorem raiseFault_cap (bit : Byte) (s : State) : (raiseFault bit s).cap = s.cap := rfl
@[simp] theorem raiseFault_wcur (bit : Byte) (s : State) : (raiseFault bit s).wcur = s.wcur := rfl
@[simp] theorem raiseFault_mStart (bit : Byte) (s : State) : (raiseFault bit s).mStart = s.mStart := rfl
@[simp] theorem raiseFault_mN (bit : Byte) (s : State) : (raiseFault bit s).mN = s.mN := rfl
@[simp] theorem raiseFault_mOff (bit : Byte) (s : State) : (raiseFault bit s).mOff = s.mOff := rfl
@[simp] theorem raiseFault_status (bit : Byte) (s : State) : (raiseFault bit s).status = s.status := rfl
@[simp] theorem raiseFault_resWritten (bit : Byte) (s : State) : (raiseFault bit s).resWritten = s.resWritten := rfl
@[simp] theorem raiseFault_resConsumed (bit : Byte) (s : State) : (raiseFault bit s).resConsumed = s.resConsumed := rfl
@[simp] theorem raiseFault_resMasked (bit : Byte) (s : State) : (raiseFault bit s).resMasked = s.resMasked := rfl
@[simp] theorem raiseFault_fault (bit : Byte) (s : State) : (raiseFault bit s).fault = s.fault ||| bit := rfl
@[simp] theorem raiseFault_srcMax (bit : Byte) (s : State) : (raiseFault bit s).srcMax = s.srcMax := rfl
@[simp] theorem raiseFault_dstMax (bit : Byte) (s : State) : (raiseFault bit s).dstMax = s.dstMax := rfl
@[simp] theorem raiseFault_draws (bit : Byte) (s : State) : (raiseFault bit s).draws = s.draws := rfl
@[simp] theorem raiseFault_actions (bit : Byte) (s : State) : (raiseFault bit s).actions = s.actions := rfl
@[simp] theorem raiseFault_replies (bit : Byte) (s : State) : (raiseFault bit s).replies = s.replies := rfl

/-! ### setBufMem on SRC -/

@[simp] theorem setSrc_frameH0 (m : Memory) (s : State) : (setBufMem .src m s).frameH0 = s.frameH0 := rfl
@[simp] theorem setSrc_frameH1 (m : Memory) (s : State) : (setBufMem .src m s).frameH1 = s.frameH1 := rfl
@[simp] theorem setSrc_frameLen (m : Memory) (s : State) : (setBufMem .src m s).frameLen = s.frameLen := rfl
@[simp] theorem setSrc_key (m : Memory) (s : State) : (setBufMem .src m s).key = s.key := rfl
@[simp] theorem setSrc_src (m : Memory) (s : State) : (setBufMem .src m s).src = m := rfl
@[simp] theorem setSrc_srcLen (m : Memory) (s : State) : (setBufMem .src m s).srcLen = s.srcLen := rfl
@[simp] theorem setSrc_rcur (m : Memory) (s : State) : (setBufMem .src m s).rcur = s.rcur := rfl
@[simp] theorem setSrc_dst (m : Memory) (s : State) : (setBufMem .src m s).dst = s.dst := rfl
@[simp] theorem setSrc_cap (m : Memory) (s : State) : (setBufMem .src m s).cap = s.cap := rfl
@[simp] theorem setSrc_wcur (m : Memory) (s : State) : (setBufMem .src m s).wcur = s.wcur := rfl
@[simp] theorem setSrc_mStart (m : Memory) (s : State) : (setBufMem .src m s).mStart = s.mStart := rfl
@[simp] theorem setSrc_mN (m : Memory) (s : State) : (setBufMem .src m s).mN = s.mN := rfl
@[simp] theorem setSrc_mOff (m : Memory) (s : State) : (setBufMem .src m s).mOff = s.mOff := rfl
@[simp] theorem setSrc_status (m : Memory) (s : State) : (setBufMem .src m s).status = s.status := rfl
@[simp] theorem setSrc_resWritten (m : Memory) (s : State) : (setBufMem .src m s).resWritten = s.resWritten := rfl
@[simp] theorem setSrc_resConsumed (m : Memory) (s : State) : (setBufMem .src m s).resConsumed = s.resConsumed := rfl
@[simp] theorem setSrc_resMasked (m : Memory) (s : State) : (setBufMem .src m s).resMasked = s.resMasked := rfl
@[simp] theorem setSrc_fault (m : Memory) (s : State) : (setBufMem .src m s).fault = s.fault := rfl
@[simp] theorem setSrc_srcMax (m : Memory) (s : State) : (setBufMem .src m s).srcMax = s.srcMax := rfl
@[simp] theorem setSrc_dstMax (m : Memory) (s : State) : (setBufMem .src m s).dstMax = s.dstMax := rfl
@[simp] theorem setSrc_draws (m : Memory) (s : State) : (setBufMem .src m s).draws = s.draws := rfl
@[simp] theorem setSrc_actions (m : Memory) (s : State) : (setBufMem .src m s).actions = s.actions := rfl
@[simp] theorem setSrc_replies (m : Memory) (s : State) : (setBufMem .src m s).replies = s.replies := rfl

/-! ### setBufMem on DST -/

@[simp] theorem setDst_frameH0 (m : Memory) (s : State) : (setBufMem .dst m s).frameH0 = s.frameH0 := rfl
@[simp] theorem setDst_frameH1 (m : Memory) (s : State) : (setBufMem .dst m s).frameH1 = s.frameH1 := rfl
@[simp] theorem setDst_frameLen (m : Memory) (s : State) : (setBufMem .dst m s).frameLen = s.frameLen := rfl
@[simp] theorem setDst_key (m : Memory) (s : State) : (setBufMem .dst m s).key = s.key := rfl
@[simp] theorem setDst_src (m : Memory) (s : State) : (setBufMem .dst m s).src = s.src := rfl
@[simp] theorem setDst_srcLen (m : Memory) (s : State) : (setBufMem .dst m s).srcLen = s.srcLen := rfl
@[simp] theorem setDst_rcur (m : Memory) (s : State) : (setBufMem .dst m s).rcur = s.rcur := rfl
@[simp] theorem setDst_dst (m : Memory) (s : State) : (setBufMem .dst m s).dst = m := rfl
@[simp] theorem setDst_cap (m : Memory) (s : State) : (setBufMem .dst m s).cap = s.cap := rfl
@[simp] theorem setDst_wcur (m : Memory) (s : State) : (setBufMem .dst m s).wcur = s.wcur := rfl
@[simp] theorem setDst_mStart (m : Memory) (s : State) : (setBufMem .dst m s).mStart = s.mStart := rfl
@[simp] theorem setDst_mN (m : Memory) (s : State) : (setBufMem .dst m s).mN = s.mN := rfl
@[simp] theorem setDst_mOff (m : Memory) (s : State) : (setBufMem .dst m s).mOff = s.mOff := rfl
@[simp] theorem setDst_status (m : Memory) (s : State) : (setBufMem .dst m s).status = s.status := rfl
@[simp] theorem setDst_resWritten (m : Memory) (s : State) : (setBufMem .dst m s).resWritten = s.resWritten := rfl
@[simp] theorem setDst_resConsumed (m : Memory) (s : State) : (setBufMem .dst m s).resConsumed = s.resConsumed := rfl
@[simp] theorem setDst_resMasked (m : Memory) (s : State) : (setBufMem .dst m s).resMasked = s.resMasked := rfl
@[simp] theorem setDst_fault (m : Memory) (s : State) : (setBufMem .dst m s).fault = s.fault := rfl
@[simp] theorem setDst_srcMax (m : Memory) (s : State) : (setBufMem .dst m s).srcMax = s.srcMax := rfl
@[simp] theorem setDst_dstMax (m : Memory) (s : State) : (setBufMem .dst m s).dstMax = s.dstMax := rfl
@[simp] theorem setDst_draws (m : Memory) (s : State) : (setBufMem .dst m s).draws = s.draws := rfl
@[simp] theorem setDst_actions (m : Memory) (s : State) : (setBufMem .dst m s).actions = s.actions := rfl
@[simp] theorem setDst_replies (m : Memory) (s : State) : (setBufMem .dst m s).replies = s.replies := rfl

/-! ### reply -/

@[simp] theorem reply_frameH0 (r : Reply) (s : State) : (reply r s).frameH0 = s.frameH0 := rfl
@[simp] theorem reply_frameH1 (r : Reply) (s : State) : (reply r s).frameH1 = s.frameH1 := rfl
@[simp] theorem reply_frameLen (r : Reply) (s : State) : (reply r s).frameLen = s.frameLen := rfl
@[simp] theorem reply_key (r : Reply) (s : State) : (reply r s).key = s.key := rfl
@[simp] theorem reply_src (r : Reply) (s : State) : (reply r s).src = s.src := rfl
@[simp] theorem reply_srcLen (r : Reply) (s : State) : (reply r s).srcLen = s.srcLen := rfl
@[simp] theorem reply_rcur (r : Reply) (s : State) : (reply r s).rcur = s.rcur := rfl
@[simp] theorem reply_dst (r : Reply) (s : State) : (reply r s).dst = s.dst := rfl
@[simp] theorem reply_cap (r : Reply) (s : State) : (reply r s).cap = s.cap := rfl
@[simp] theorem reply_wcur (r : Reply) (s : State) : (reply r s).wcur = s.wcur := rfl
@[simp] theorem reply_mStart (r : Reply) (s : State) : (reply r s).mStart = s.mStart := rfl
@[simp] theorem reply_mN (r : Reply) (s : State) : (reply r s).mN = s.mN := rfl
@[simp] theorem reply_mOff (r : Reply) (s : State) : (reply r s).mOff = s.mOff := rfl
@[simp] theorem reply_status (r : Reply) (s : State) : (reply r s).status = s.status := rfl
@[simp] theorem reply_resWritten (r : Reply) (s : State) : (reply r s).resWritten = s.resWritten := rfl
@[simp] theorem reply_resConsumed (r : Reply) (s : State) : (reply r s).resConsumed = s.resConsumed := rfl
@[simp] theorem reply_resMasked (r : Reply) (s : State) : (reply r s).resMasked = s.resMasked := rfl
@[simp] theorem reply_fault (r : Reply) (s : State) : (reply r s).fault = s.fault := rfl
@[simp] theorem reply_srcMax (r : Reply) (s : State) : (reply r s).srcMax = s.srcMax := rfl
@[simp] theorem reply_dstMax (r : Reply) (s : State) : (reply r s).dstMax = s.dstMax := rfl
@[simp] theorem reply_draws (r : Reply) (s : State) : (reply r s).draws = s.draws := rfl
@[simp] theorem reply_actions (r : Reply) (s : State) : (reply r s).actions = s.actions := rfl
@[simp] theorem reply_replies (r : Reply) (s : State) : (reply r s).replies = r :: s.replies := rfl

/-! ### actFirst -/

@[simp] theorem actFirst_frameH0 (as : List HostAction) (s : State) : (actFirst as s).frameH0 = s.frameH0 := rfl
@[simp] theorem actFirst_frameH1 (as : List HostAction) (s : State) : (actFirst as s).frameH1 = s.frameH1 := rfl
@[simp] theorem actFirst_frameLen (as : List HostAction) (s : State) : (actFirst as s).frameLen = s.frameLen := rfl
@[simp] theorem actFirst_key (as : List HostAction) (s : State) : (actFirst as s).key = s.key := rfl
@[simp] theorem actFirst_src (as : List HostAction) (s : State) : (actFirst as s).src = s.src := rfl
@[simp] theorem actFirst_srcLen (as : List HostAction) (s : State) : (actFirst as s).srcLen = s.srcLen := rfl
@[simp] theorem actFirst_rcur (as : List HostAction) (s : State) : (actFirst as s).rcur = s.rcur := rfl
@[simp] theorem actFirst_dst (as : List HostAction) (s : State) : (actFirst as s).dst = s.dst := rfl
@[simp] theorem actFirst_cap (as : List HostAction) (s : State) : (actFirst as s).cap = s.cap := rfl
@[simp] theorem actFirst_wcur (as : List HostAction) (s : State) : (actFirst as s).wcur = s.wcur := rfl
@[simp] theorem actFirst_mStart (as : List HostAction) (s : State) : (actFirst as s).mStart = s.mStart := rfl
@[simp] theorem actFirst_mN (as : List HostAction) (s : State) : (actFirst as s).mN = s.mN := rfl
@[simp] theorem actFirst_mOff (as : List HostAction) (s : State) : (actFirst as s).mOff = s.mOff := rfl
@[simp] theorem actFirst_status (as : List HostAction) (s : State) : (actFirst as s).status = s.status := rfl
@[simp] theorem actFirst_resWritten (as : List HostAction) (s : State) : (actFirst as s).resWritten = s.resWritten := rfl
@[simp] theorem actFirst_resConsumed (as : List HostAction) (s : State) : (actFirst as s).resConsumed = s.resConsumed := rfl
@[simp] theorem actFirst_resMasked (as : List HostAction) (s : State) : (actFirst as s).resMasked = s.resMasked := rfl
@[simp] theorem actFirst_fault (as : List HostAction) (s : State) : (actFirst as s).fault = s.fault := rfl
@[simp] theorem actFirst_srcMax (as : List HostAction) (s : State) : (actFirst as s).srcMax = s.srcMax := rfl
@[simp] theorem actFirst_dstMax (as : List HostAction) (s : State) : (actFirst as s).dstMax = s.dstMax := rfl
@[simp] theorem actFirst_draws (as : List HostAction) (s : State) : (actFirst as s).draws = s.draws := rfl
@[simp] theorem actFirst_actions (as : List HostAction) (s : State) : (actFirst as s).actions = as ++ s.actions := rfl
@[simp] theorem actFirst_replies (as : List HostAction) (s : State) : (actFirst as s).replies = s.replies := rfl

/-! ### resetBlock -/

@[simp] theorem resetBlock_frameH0 (s : State) : (resetBlock s).frameH0 = 0x00 := rfl
@[simp] theorem resetBlock_frameH1 (s : State) : (resetBlock s).frameH1 = 0x00 := rfl
@[simp] theorem resetBlock_frameLen (s : State) : (resetBlock s).frameLen = 0 := rfl
@[simp] theorem resetBlock_key (s : State) : (resetBlock s).key = ⟨0x00, 0x00, 0x00, 0x00⟩ := rfl
@[simp] theorem resetBlock_src (s : State) : (resetBlock s).src = [] := rfl
@[simp] theorem resetBlock_srcLen (s : State) : (resetBlock s).srcLen = 0 := rfl
@[simp] theorem resetBlock_rcur (s : State) : (resetBlock s).rcur = 0 := rfl
@[simp] theorem resetBlock_dst (s : State) : (resetBlock s).dst = [] := rfl
@[simp] theorem resetBlock_cap (s : State) : (resetBlock s).cap = 0 := rfl
@[simp] theorem resetBlock_wcur (s : State) : (resetBlock s).wcur = 0 := rfl
@[simp] theorem resetBlock_mStart (s : State) : (resetBlock s).mStart = 0 := rfl
@[simp] theorem resetBlock_mN (s : State) : (resetBlock s).mN = 0 := rfl
@[simp] theorem resetBlock_mOff (s : State) : (resetBlock s).mOff = 0 := rfl
@[simp] theorem resetBlock_status (s : State) : (resetBlock s).status = 0x00 := rfl
@[simp] theorem resetBlock_resWritten (s : State) : (resetBlock s).resWritten = 0 := rfl
@[simp] theorem resetBlock_resConsumed (s : State) : (resetBlock s).resConsumed = 0 := rfl
@[simp] theorem resetBlock_resMasked (s : State) : (resetBlock s).resMasked = 0 := rfl
@[simp] theorem resetBlock_fault (s : State) : (resetBlock s).fault = 0x00 := rfl
@[simp] theorem resetBlock_srcMax (s : State) : (resetBlock s).srcMax = s.srcMax := rfl
@[simp] theorem resetBlock_dstMax (s : State) : (resetBlock s).dstMax = s.dstMax := rfl
@[simp] theorem resetBlock_draws (s : State) : (resetBlock s).draws = s.draws := rfl
@[simp] theorem resetBlock_actions (s : State) : (resetBlock s).actions = s.actions := rfl
@[simp] theorem resetBlock_replies (s : State) : (resetBlock s).replies = s.replies := rfl

/-! ### encodeCommit -/

@[simp] theorem encodeCommit_frameH0 (d : Memory) (n : Nat) (s : State) : (encodeCommit d n s).frameH0 = s.frameH0 := rfl
@[simp] theorem encodeCommit_frameH1 (d : Memory) (n : Nat) (s : State) : (encodeCommit d n s).frameH1 = encodedH1 s := rfl
@[simp] theorem encodeCommit_frameLen (d : Memory) (n : Nat) (s : State) : (encodeCommit d n s).frameLen = s.frameLen := rfl
@[simp] theorem encodeCommit_key (d : Memory) (n : Nat) (s : State) : (encodeCommit d n s).key = s.key := rfl
@[simp] theorem encodeCommit_src (d : Memory) (n : Nat) (s : State) : (encodeCommit d n s).src = s.src := rfl
@[simp] theorem encodeCommit_srcLen (d : Memory) (n : Nat) (s : State) : (encodeCommit d n s).srcLen = s.srcLen := rfl
@[simp] theorem encodeCommit_rcur (d : Memory) (n : Nat) (s : State) : (encodeCommit d n s).rcur = s.rcur := rfl
@[simp] theorem encodeCommit_dst (d : Memory) (n : Nat) (s : State) : (encodeCommit d n s).dst = d := rfl
@[simp] theorem encodeCommit_cap (d : Memory) (n : Nat) (s : State) : (encodeCommit d n s).cap = s.cap := rfl
@[simp] theorem encodeCommit_wcur (d : Memory) (n : Nat) (s : State) : (encodeCommit d n s).wcur = BitVec.ofNat 64 (s.wcur.toNat + n) := rfl
@[simp] theorem encodeCommit_mStart (d : Memory) (n : Nat) (s : State) : (encodeCommit d n s).mStart = s.mStart := rfl
@[simp] theorem encodeCommit_mN (d : Memory) (n : Nat) (s : State) : (encodeCommit d n s).mN = s.mN := rfl
@[simp] theorem encodeCommit_mOff (d : Memory) (n : Nat) (s : State) : (encodeCommit d n s).mOff = s.mOff := rfl
@[simp] theorem encodeCommit_status (d : Memory) (n : Nat) (s : State) : (encodeCommit d n s).status = statusOk := rfl
@[simp] theorem encodeCommit_resWritten (d : Memory) (n : Nat) (s : State) : (encodeCommit d n s).resWritten = BitVec.ofNat 64 n := rfl
@[simp] theorem encodeCommit_resConsumed (d : Memory) (n : Nat) (s : State) : (encodeCommit d n s).resConsumed = 0 := rfl
@[simp] theorem encodeCommit_resMasked (d : Memory) (n : Nat) (s : State) : (encodeCommit d n s).resMasked = 0 := rfl
@[simp] theorem encodeCommit_fault (d : Memory) (n : Nat) (s : State) : (encodeCommit d n s).fault = s.fault := rfl
@[simp] theorem encodeCommit_srcMax (d : Memory) (n : Nat) (s : State) : (encodeCommit d n s).srcMax = s.srcMax := rfl
@[simp] theorem encodeCommit_dstMax (d : Memory) (n : Nat) (s : State) : (encodeCommit d n s).dstMax = s.dstMax := rfl
@[simp] theorem encodeCommit_draws (d : Memory) (n : Nat) (s : State) : (encodeCommit d n s).draws = s.draws := rfl
@[simp] theorem encodeCommit_actions (d : Memory) (n : Nat) (s : State) : (encodeCommit d n s).actions = s.actions := rfl
@[simp] theorem encodeCommit_replies (d : Memory) (n : Nat) (s : State) : (encodeCommit d n s).replies = s.replies := rfl

/-! ### encodeFail -/

@[simp] theorem encodeFail_frameH0 (s : State) : (encodeFail s).frameH0 = s.frameH0 := rfl
@[simp] theorem encodeFail_frameH1 (s : State) : (encodeFail s).frameH1 = if Config.failedEncodeFills s.draws then encodedH1 s else s.frameH1 := rfl
@[simp] theorem encodeFail_frameLen (s : State) : (encodeFail s).frameLen = s.frameLen := rfl
@[simp] theorem encodeFail_key (s : State) : (encodeFail s).key = s.key := rfl
@[simp] theorem encodeFail_src (s : State) : (encodeFail s).src = s.src := rfl
@[simp] theorem encodeFail_srcLen (s : State) : (encodeFail s).srcLen = s.srcLen := rfl
@[simp] theorem encodeFail_rcur (s : State) : (encodeFail s).rcur = s.rcur := rfl
@[simp] theorem encodeFail_dst (s : State) : (encodeFail s).dst = s.dst := rfl
@[simp] theorem encodeFail_cap (s : State) : (encodeFail s).cap = s.cap := rfl
@[simp] theorem encodeFail_wcur (s : State) : (encodeFail s).wcur = s.wcur := rfl
@[simp] theorem encodeFail_mStart (s : State) : (encodeFail s).mStart = s.mStart := rfl
@[simp] theorem encodeFail_mN (s : State) : (encodeFail s).mN = s.mN := rfl
@[simp] theorem encodeFail_mOff (s : State) : (encodeFail s).mOff = s.mOff := rfl
@[simp] theorem encodeFail_status (s : State) : (encodeFail s).status = statusInsufficientOutputSpace := rfl
@[simp] theorem encodeFail_resWritten (s : State) : (encodeFail s).resWritten = 0 := rfl
@[simp] theorem encodeFail_resConsumed (s : State) : (encodeFail s).resConsumed = 0 := rfl
@[simp] theorem encodeFail_resMasked (s : State) : (encodeFail s).resMasked = 0 := rfl
@[simp] theorem encodeFail_fault (s : State) : (encodeFail s).fault = s.fault := rfl
@[simp] theorem encodeFail_srcMax (s : State) : (encodeFail s).srcMax = s.srcMax := rfl
@[simp] theorem encodeFail_dstMax (s : State) : (encodeFail s).dstMax = s.dstMax := rfl
@[simp] theorem encodeFail_draws (s : State) : (encodeFail s).draws = s.draws + 1 := rfl
@[simp] theorem encodeFail_actions (s : State) : (encodeFail s).actions = s.actions := rfl
@[simp] theorem encodeFail_replies (s : State) : (encodeFail s).replies = s.replies := rfl

/-! ### decodeShort -/

@[simp] theorem decodeShort_frameH0 (s : State) : (decodeShort s).frameH0 = s.frameH0 := rfl
@[simp] theorem decodeShort_frameH1 (s : State) : (decodeShort s).frameH1 = s.frameH1 := rfl
@[simp] theorem decodeShort_frameLen (s : State) : (decodeShort s).frameLen = s.frameLen := rfl
@[simp] theorem decodeShort_key (s : State) : (decodeShort s).key = s.key := rfl
@[simp] theorem decodeShort_src (s : State) : (decodeShort s).src = s.src := rfl
@[simp] theorem decodeShort_srcLen (s : State) : (decodeShort s).srcLen = s.srcLen := rfl
@[simp] theorem decodeShort_rcur (s : State) : (decodeShort s).rcur = s.rcur := rfl
@[simp] theorem decodeShort_dst (s : State) : (decodeShort s).dst = s.dst := rfl
@[simp] theorem decodeShort_cap (s : State) : (decodeShort s).cap = s.cap := rfl
@[simp] theorem decodeShort_wcur (s : State) : (decodeShort s).wcur = s.wcur := rfl
@[simp] theorem decodeShort_mStart (s : State) : (decodeShort s).mStart = s.mStart := rfl
@[simp] theorem decodeShort_mN (s : State) : (decodeShort s).mN = s.mN := rfl
@[simp] theorem decodeShort_mOff (s : State) : (decodeShort s).mOff = s.mOff := rfl
@[simp] theorem decodeShort_status (s : State) : (decodeShort s).status = statusInsufficientInput := rfl
@[simp] theorem decodeShort_resWritten (s : State) : (decodeShort s).resWritten = 0 := rfl
@[simp] theorem decodeShort_resConsumed (s : State) : (decodeShort s).resConsumed = 0 := rfl
@[simp] theorem decodeShort_resMasked (s : State) : (decodeShort s).resMasked = 0 := rfl
@[simp] theorem decodeShort_fault (s : State) : (decodeShort s).fault = s.fault := rfl
@[simp] theorem decodeShort_srcMax (s : State) : (decodeShort s).srcMax = s.srcMax := rfl
@[simp] theorem decodeShort_dstMax (s : State) : (decodeShort s).dstMax = s.dstMax := rfl
@[simp] theorem decodeShort_draws (s : State) : (decodeShort s).draws = s.draws := rfl
@[simp] theorem decodeShort_actions (s : State) : (decodeShort s).actions = s.actions := rfl
@[simp] theorem decodeShort_replies (s : State) : (decodeShort s).replies = s.replies := rfl

/-! ### decodeCommit of a masked header -/

@[simp] theorem decodeCommit_some_frameH0 (b0 b1 : Byte) (len : Word) (k : Key) (s : State) : (decodeCommit b0 b1 len (some k) s).frameH0 = b0 := rfl
@[simp] theorem decodeCommit_some_frameH1 (b0 b1 : Byte) (len : Word) (k : Key) (s : State) : (decodeCommit b0 b1 len (some k) s).frameH1 = b1 := rfl
@[simp] theorem decodeCommit_some_frameLen (b0 b1 : Byte) (len : Word) (k : Key) (s : State) : (decodeCommit b0 b1 len (some k) s).frameLen = len := rfl
@[simp] theorem decodeCommit_some_key (b0 b1 : Byte) (len : Word) (k : Key) (s : State) : (decodeCommit b0 b1 len (some k) s).key = k := rfl
@[simp] theorem decodeCommit_some_src (b0 b1 : Byte) (len : Word) (k : Key) (s : State) : (decodeCommit b0 b1 len (some k) s).src = s.src := rfl
@[simp] theorem decodeCommit_some_srcLen (b0 b1 : Byte) (len : Word) (k : Key) (s : State) : (decodeCommit b0 b1 len (some k) s).srcLen = s.srcLen := rfl
@[simp] theorem decodeCommit_some_rcur (b0 b1 : Byte) (len : Word) (k : Key) (s : State) : (decodeCommit b0 b1 len (some k) s).rcur = BitVec.ofNat 64 (s.rcur.toNat + hsize b1) := rfl
@[simp] theorem decodeCommit_some_dst (b0 b1 : Byte) (len : Word) (k : Key) (s : State) : (decodeCommit b0 b1 len (some k) s).dst = s.dst := rfl
@[simp] theorem decodeCommit_some_cap (b0 b1 : Byte) (len : Word) (k : Key) (s : State) : (decodeCommit b0 b1 len (some k) s).cap = s.cap := rfl
@[simp] theorem decodeCommit_some_wcur (b0 b1 : Byte) (len : Word) (k : Key) (s : State) : (decodeCommit b0 b1 len (some k) s).wcur = s.wcur := rfl
@[simp] theorem decodeCommit_some_mStart (b0 b1 : Byte) (len : Word) (k : Key) (s : State) : (decodeCommit b0 b1 len (some k) s).mStart = s.mStart := rfl
@[simp] theorem decodeCommit_some_mN (b0 b1 : Byte) (len : Word) (k : Key) (s : State) : (decodeCommit b0 b1 len (some k) s).mN = s.mN := rfl
@[simp] theorem decodeCommit_some_mOff (b0 b1 : Byte) (len : Word) (k : Key) (s : State) : (decodeCommit b0 b1 len (some k) s).mOff = s.mOff := rfl
@[simp] theorem decodeCommit_some_status (b0 b1 : Byte) (len : Word) (k : Key) (s : State) : (decodeCommit b0 b1 len (some k) s).status = statusOk := rfl
@[simp] theorem decodeCommit_some_resWritten (b0 b1 : Byte) (len : Word) (k : Key) (s : State) : (decodeCommit b0 b1 len (some k) s).resWritten = 0 := rfl
@[simp] theorem decodeCommit_some_resConsumed (b0 b1 : Byte) (len : Word) (k : Key) (s : State) : (decodeCommit b0 b1 len (some k) s).resConsumed = BitVec.ofNat 64 (hsize b1) := rfl
@[simp] theorem decodeCommit_some_resMasked (b0 b1 : Byte) (len : Word) (k : Key) (s : State) : (decodeCommit b0 b1 len (some k) s).resMasked = 0 := rfl
@[simp] theorem decodeCommit_some_fault (b0 b1 : Byte) (len : Word) (k : Key) (s : State) : (decodeCommit b0 b1 len (some k) s).fault = s.fault := rfl
@[simp] theorem decodeCommit_some_srcMax (b0 b1 : Byte) (len : Word) (k : Key) (s : State) : (decodeCommit b0 b1 len (some k) s).srcMax = s.srcMax := rfl
@[simp] theorem decodeCommit_some_dstMax (b0 b1 : Byte) (len : Word) (k : Key) (s : State) : (decodeCommit b0 b1 len (some k) s).dstMax = s.dstMax := rfl
@[simp] theorem decodeCommit_some_draws (b0 b1 : Byte) (len : Word) (k : Key) (s : State) : (decodeCommit b0 b1 len (some k) s).draws = s.draws := rfl
@[simp] theorem decodeCommit_some_actions (b0 b1 : Byte) (len : Word) (k : Key) (s : State) : (decodeCommit b0 b1 len (some k) s).actions = s.actions := rfl
@[simp] theorem decodeCommit_some_replies (b0 b1 : Byte) (len : Word) (k : Key) (s : State) : (decodeCommit b0 b1 len (some k) s).replies = s.replies := rfl

/-! ### decodeCommit of an unmasked header -/

@[simp] theorem decodeCommit_none_frameH0 (b0 b1 : Byte) (len : Word) (s : State) : (decodeCommit b0 b1 len none s).frameH0 = b0 := rfl
@[simp] theorem decodeCommit_none_frameH1 (b0 b1 : Byte) (len : Word) (s : State) : (decodeCommit b0 b1 len none s).frameH1 = b1 := rfl
@[simp] theorem decodeCommit_none_frameLen (b0 b1 : Byte) (len : Word) (s : State) : (decodeCommit b0 b1 len none s).frameLen = len := rfl
@[simp] theorem decodeCommit_none_key (b0 b1 : Byte) (len : Word) (s : State) : (decodeCommit b0 b1 len none s).key = Config.drawnKey s.draws s.key := rfl
@[simp] theorem decodeCommit_none_src (b0 b1 : Byte) (len : Word) (s : State) : (decodeCommit b0 b1 len none s).src = s.src := rfl
@[simp] theorem decodeCommit_none_srcLen (b0 b1 : Byte) (len : Word) (s : State) : (decodeCommit b0 b1 len none s).srcLen = s.srcLen := rfl
@[simp] theorem decodeCommit_none_rcur (b0 b1 : Byte) (len : Word) (s : State) : (decodeCommit b0 b1 len none s).rcur = BitVec.ofNat 64 (s.rcur.toNat + hsize b1) := rfl
@[simp] theorem decodeCommit_none_dst (b0 b1 : Byte) (len : Word) (s : State) : (decodeCommit b0 b1 len none s).dst = s.dst := rfl
@[simp] theorem decodeCommit_none_cap (b0 b1 : Byte) (len : Word) (s : State) : (decodeCommit b0 b1 len none s).cap = s.cap := rfl
@[simp] theorem decodeCommit_none_wcur (b0 b1 : Byte) (len : Word) (s : State) : (decodeCommit b0 b1 len none s).wcur = s.wcur := rfl
@[simp] theorem decodeCommit_none_mStart (b0 b1 : Byte) (len : Word) (s : State) : (decodeCommit b0 b1 len none s).mStart = s.mStart := rfl
@[simp] theorem decodeCommit_none_mN (b0 b1 : Byte) (len : Word) (s : State) : (decodeCommit b0 b1 len none s).mN = s.mN := rfl
@[simp] theorem decodeCommit_none_mOff (b0 b1 : Byte) (len : Word) (s : State) : (decodeCommit b0 b1 len none s).mOff = s.mOff := rfl
@[simp] theorem decodeCommit_none_status (b0 b1 : Byte) (len : Word) (s : State) : (decodeCommit b0 b1 len none s).status = statusOk := rfl
@[simp] theorem decodeCommit_none_resWritten (b0 b1 : Byte) (len : Word) (s : State) : (decodeCommit b0 b1 len none s).resWritten = 0 := rfl
@[simp] theorem decodeCommit_none_resConsumed (b0 b1 : Byte) (len : Word) (s : State) : (decodeCommit b0 b1 len none s).resConsumed = BitVec.ofNat 64 (hsize b1) := rfl
@[simp] theorem decodeCommit_none_resMasked (b0 b1 : Byte) (len : Word) (s : State) : (decodeCommit b0 b1 len none s).resMasked = 0 := rfl
@[simp] theorem decodeCommit_none_fault (b0 b1 : Byte) (len : Word) (s : State) : (decodeCommit b0 b1 len none s).fault = s.fault := rfl
@[simp] theorem decodeCommit_none_srcMax (b0 b1 : Byte) (len : Word) (s : State) : (decodeCommit b0 b1 len none s).srcMax = s.srcMax := rfl
@[simp] theorem decodeCommit_none_dstMax (b0 b1 : Byte) (len : Word) (s : State) : (decodeCommit b0 b1 len none s).dstMax = s.dstMax := rfl
@[simp] theorem decodeCommit_none_draws (b0 b1 : Byte) (len : Word) (s : State) : (decodeCommit b0 b1 len none s).draws = s.draws + 1 := rfl
@[simp] theorem decodeCommit_none_actions (b0 b1 : Byte) (len : Word) (s : State) : (decodeCommit b0 b1 len none s).actions = s.actions := rfl
@[simp] theorem decodeCommit_none_replies (b0 b1 : Byte) (len : Word) (s : State) : (decodeCommit b0 b1 len none s).replies = s.replies := rfl

/-! ### maskCommit -/

@[simp] theorem maskCommit_frameH0 (s : State) : (maskCommit s).frameH0 = s.frameH0 := rfl
@[simp] theorem maskCommit_frameH1 (s : State) : (maskCommit s).frameH1 = s.frameH1 := rfl
@[simp] theorem maskCommit_frameLen (s : State) : (maskCommit s).frameLen = s.frameLen := rfl
@[simp] theorem maskCommit_key (s : State) : (maskCommit s).key = s.key := rfl
@[simp] theorem maskCommit_src (s : State) : (maskCommit s).src = s.src := rfl
@[simp] theorem maskCommit_srcLen (s : State) : (maskCommit s).srcLen = s.srcLen := rfl
@[simp] theorem maskCommit_rcur (s : State) : (maskCommit s).rcur = s.rcur := rfl
@[simp] theorem maskCommit_dst (s : State) : (maskCommit s).dst = s.dst := rfl
@[simp] theorem maskCommit_cap (s : State) : (maskCommit s).cap = s.cap := rfl
@[simp] theorem maskCommit_wcur (s : State) : (maskCommit s).wcur = s.wcur := rfl
@[simp] theorem maskCommit_mStart (s : State) : (maskCommit s).mStart = s.mStart := rfl
@[simp] theorem maskCommit_mN (s : State) : (maskCommit s).mN = s.mN := rfl
@[simp] theorem maskCommit_mOff (s : State) : (maskCommit s).mOff = s.mOff := rfl
@[simp] theorem maskCommit_status (s : State) : (maskCommit s).status = statusOk := rfl
@[simp] theorem maskCommit_resWritten (s : State) : (maskCommit s).resWritten = 0 := rfl
@[simp] theorem maskCommit_resConsumed (s : State) : (maskCommit s).resConsumed = 0 := rfl
@[simp] theorem maskCommit_resMasked (s : State) : (maskCommit s).resMasked = s.mN := rfl
@[simp] theorem maskCommit_fault (s : State) : (maskCommit s).fault = s.fault := rfl
@[simp] theorem maskCommit_srcMax (s : State) : (maskCommit s).srcMax = s.srcMax := rfl
@[simp] theorem maskCommit_dstMax (s : State) : (maskCommit s).dstMax = s.dstMax := rfl
@[simp] theorem maskCommit_draws (s : State) : (maskCommit s).draws = s.draws := rfl
@[simp] theorem maskCommit_actions (s : State) : (maskCommit s).actions = s.actions := rfl
@[simp] theorem maskCommit_replies (s : State) : (maskCommit s).replies = s.replies := rfl

/-! ### The chosen buffer -/

@[simp] theorem bufMem_src (s : State) : bufMem .src s = s.src := rfl
@[simp] theorem bufMem_dst (s : State) : bufMem .dst s = s.dst := rfl
@[simp] theorem bufLimit_src (s : State) : bufLimit .src s = s.srcLen := rfl
@[simp] theorem bufLimit_dst (s : State) : bufLimit .dst s = s.cap := rfl
@[simp] theorem bufSize_src (s : State) : bufSize .src s = s.srcMax := rfl
@[simp] theorem bufSize_dst (s : State) : bufSize .dst s = s.dstMax := rfl

end Sys2Proof.Machine
end

