-- ==== Sys2Proof/Laws/Commands.lean ====
section
/-! SUPPORT. For each check and each command one lemma that says once everything it can do; later proofs cite these and do
not unfold the commands. -/

namespace Sys2Proof.Machine

theorem halted_iff (s : State) : halted s = true ↔ s.fault ≠ 0 := by
  simp [halted]

theorem halted_false_iff (s : State) : halted s = false ↔ s.fault = 0 := by
  simp [halted]

theorem cursorOutside_iff (c l z : Word) :
    cursorOutside c l z = true ↔ l.toNat < c.toNat ∨ z.toNat < l.toNat := by
  simp [cursorOutside]

theorem sliceOutside_iff (a n l z : Word) :
    sliceOutside a n l z = true ↔ l.toNat < a.toNat + n.toNat ∨ z.toNat < l.toNat := by
  simp [sliceOutside]

/-- The first FAULT bit set is the only one (R148). -/
theorem raiseFault_fault_of_clear (bit : Byte) (s : State) (h : s.fault = 0) : (raiseFault bit s).fault = bit := by
  simp [h]

/-- The header ENCODE writes is as long as its byte 1 says (R101). -/
theorem encodedHeader_length (s : State) : (encodedHeader s).length = hsize (encodedH1 s) := by
  unfold encodedHeader encodeBytes hsize encodedH1
  simp only [List.length_append, extBytes_length, lenIndField_withLenInd, maskFlag_withLenInd]
  cases maskFlag s.frameH1 <;> simp [Nat.add_comm]

/-- Everything ENCODE can do. -/
theorem execEncode_cases (s : State) :
    (s.fault ≠ 0 ∧ execEncode s = .next s) ∨
    (s.fault = 0 ∧ ¬ encodeInRange s ∧ execEncode s = .next (raiseFault faultRange s)) ∨
    (s.fault = 0 ∧ encodeInRange s ∧ room s < hsize (encodedH1 s) ∧ execEncode s = .next (encodeFail s)) ∨
    (s.fault = 0 ∧ encodeInRange s ∧ hsize (encodedH1 s) ≤ room s ∧
      execEncode s =
        .next (encodeCommit (memWriteBytes s.dst s.wcur.toNat (encodedHeader s)) (hsize (encodedH1 s)) s)) := by
  unfold execEncode encodeInRange room
  by_cases hf : s.fault = 0
  · have hh := (halted_false_iff s).2 hf
    by_cases hc : cursorOutside s.wcur s.cap s.dstMax = true
    · have := (cursorOutside_iff _ _ _).1 hc
      right; left
      simp [hf, hh, hc]
      omega
    · have hc' := mt (cursorOutside_iff _ _ _).2 hc
      right; right
      by_cases hr : s.cap.toNat - s.wcur.toNat < hsize (encodedH1 s)
      · left
        simp [hf, hh, hc, encodedHeader_length, hr]
        omega
      · right
        simp [hf, hh, hc, encodedHeader_length, hr]
        omega
  · left
    exact ⟨hf, by simp [(halted_iff s).2 hf]⟩

/-- Everything DECODE can do, up to what it finds at the read cursor. -/
theorem execDecode_cases (s : State) :
    (s.fault ≠ 0 ∧ execDecode s = .next s) ∨
    (s.fault = 0 ∧ ¬ decodeInRange s ∧ execDecode s = .next (raiseFault faultRange s)) ∨
    (s.fault = 0 ∧ decodeInRange s ∧
      execDecode s = decodeOutcome (readHeader s.src s.rcur.toNat (available s)) s) := by
  unfold execDecode decodeInRange available
  by_cases hf : s.fault = 0
  · have hh := (halted_false_iff s).2 hf
    by_cases hc : cursorOutside s.rcur s.srcLen s.srcMax = true
    · have := (cursorOutside_iff _ _ _).1 hc
      right; left
      simp [hf, hh, hc]
      omega
    · have hc' := mt (cursorOutside_iff _ _ _).2 hc
      right; right
      simp [hf, hh, hc]
      omega
  · left
    exact ⟨hf, by simp [(halted_iff s).2 hf]⟩

/-- The key is read where its four bytes hold values. -/
theorem readKey_ok {m : Memory} {a : Nat} {key : Key} :
    readKey m a = .ok key ↔ holdsAt m a (keyBytes key) := by
  obtain ⟨k0, k1, k2, k3⟩ := key
  simp only [keyBytes, holdsAt_cons, holdsAt_nil, and_true, show a + 1 + 1 = a + 2 by omega,
    show a + 2 + 1 = a + 3 by omega]
  unfold readKey memReadByte
  cases memRead m a <;> cases memRead m (a + 1) <;> cases memRead m (a + 2) <;> cases memRead m (a + 3) <;> simp

/-- A key that is not read has a byte that holds no value. -/
theorem readKey_error {m : Memory} {a : Nat} {f : Fault} (h : readKey m a = .error f) :
    ∃ x, a ≤ x ∧ x < a + 4 ∧ memRead m x = none ∧ f = .unwrittenByte .src x := by
  unfold readKey at h
  split at h
  · cases h
  all_goals
    rename_i h1
    cases h
  · obtain ⟨hx, hf⟩ := memReadByte_error.1 h1
    exact ⟨a, by omega, by omega, hx, hf⟩
  · obtain ⟨hx, hf⟩ := memReadByte_error.1 h1
    exact ⟨a + 1, by omega, by omega, hx, hf⟩
  · obtain ⟨hx, hf⟩ := memReadByte_error.1 h1
    exact ⟨a + 2, by omega, by omega, hx, hf⟩
  · obtain ⟨hx, hf⟩ := memReadByte_error.1 h1
    exact ⟨a + 3, by omega, by omega, hx, hf⟩

/-- The header ran short: fewer than 2 bytes, or 2 that hold values and announce more than there are. -/
theorem readHeader_short {m : Memory} {p avail : Nat} :
    readHeader m p avail = .ok .short ↔
      avail < 2 ∨ ∃ b0 b1, memRead m p = some b0 ∧ memRead m (p + 1) = some b1 ∧ avail < hsize b1 := by
  unfold readHeader
  by_cases h2 : avail < 2
  · simp [h2]
  · simp only [h2, if_false, false_or]
    unfold memReadByte
    cases h0 : memRead m p with
    | none => simp
    | some b0 =>
      cases h1 : memRead m (p + 1) with
      | none => simp
      | some b1 =>
        by_cases ha : avail < hsize b1
        · simp [ha]
        · simp only [ha, if_false]
          constructor
          · intro h
            unfold readRest at h
            split at h
            · cases h
            · simp only at h
              split at h
              · split at h <;> cases h
              · cases h
          · rintro ⟨_, _, _, h, h'⟩
            cases h
            exact absurd h' ha

/-- A header is found exactly where all its bytes stand: bytes 0 and 1, the extended length that assembles to the payload
length, and the key when MASKF is set. -/
theorem readHeader_header {m : Memory} {p avail : Nat} {b0 b1 : Byte} {len : Word} {key : Option Key} :
    readHeader m p avail = .ok (.header b0 b1 len key) ↔
      hsize b1 ≤ avail ∧ memRead m p = some b0 ∧ memRead m (p + 1) = some b1 ∧
      (∃ extended, extended.length = ext (lenIndField b1) ∧ holdsAt m (p + 2) extended ∧
        len = assembleLen (lenIndField b1) extended) ∧
      (if maskFlag b1 then ∃ k, key = some k ∧ holdsAt m (p + 2 + ext (lenIndField b1)) (keyBytes k)
        else key = none) := by
  unfold readHeader
  by_cases h2 : avail < 2
  · simp only [h2, if_true]
    constructor
    · intro h
      cases h
    · rintro ⟨h, -⟩
      have := hsize_pos b1
      omega
  · simp only [h2, if_false]
    unfold memReadByte
    cases h0 : memRead m p with
    | none => simp
    | some c0 =>
      cases h1 : memRead m (p + 1) with
      | none => simp
      | some c1 =>
        simp only
        by_cases ha : avail < hsize c1
        · simp only [ha, if_true]
          constructor
          · intro h
            cases h
          · rintro ⟨h, -, h', -⟩
            cases h'
            omega
        · simp only [ha, if_false]
          unfold readRest
          constructor
          · intro h
            split at h
            · cases h
            · rename_i e he
              obtain ⟨hl, hh⟩ := memReadBytes_ok.1 he
              simp only at h
              split at h
              · rename_i hm
                split at h
                · cases h
                · rename_i k hk
                  cases h
                  refine ⟨by omega, rfl, rfl, ⟨e, hl, hh, rfl⟩, ?_⟩
                  rw [if_pos hm]
                  exact ⟨k, rfl, readKey_ok.1 hk⟩
              · rename_i hm
                cases h
                refine ⟨by omega, rfl, rfl, ⟨e, hl, hh, rfl⟩, ?_⟩
                rw [if_neg hm]
          · rintro ⟨-, e0, e1, ⟨e, hl, hh, rfl⟩, hk⟩
            cases e0
            cases e1
            rw [memReadBytes_ok.2 ⟨hl, hh⟩]
            by_cases hm : maskFlag b1 = true
            · rw [if_pos hm] at hk
              obtain ⟨k, rfl, hk⟩ := hk
              simp [hm, readKey_ok.2 hk]
            · rw [if_neg hm] at hk
              simp [hm, hk]

/-- What DECODE faults on: a byte of the header, below the end of the valid bytes, that holds no value. -/
theorem readHeader_error {m : Memory} {p avail : Nat} {f : Fault} (h : readHeader m p avail = .error f) :
    ∃ x, p ≤ x ∧ x < p + avail ∧ x < p + 14 ∧ memRead m x = none ∧ f = .unwrittenByte .src x := by
  unfold readHeader at h
  split at h
  · cases h
  · split at h
    · rename_i f' h0
      cases h
      obtain ⟨hx, hf⟩ := memReadByte_error.1 h0
      exact ⟨p, by omega, by omega, by omega, hx, hf⟩
    · split at h
      · rename_i f' h1
        cases h
        obtain ⟨hx, hf⟩ := memReadByte_error.1 h1
        exact ⟨p + 1, by omega, by omega, by omega, hx, hf⟩
      · rename_i b1 _
        split at h
        · cases h
        · rename_i ha
          have hs : hsize b1 = 2 + ext (lenIndField b1) + 4 * (if maskFlag b1 then 1 else 0) := rfl
          have hle := hsize_le b1
          unfold readRest at h
          split at h
          · rename_i he
            cases h
            obtain ⟨x, h1, h2, h3, h4⟩ := memReadBytes_error he
            exact ⟨x, by omega, by omega, by omega, h3, h4⟩
          · simp only at h
            split at h
            · rename_i hm
              rw [if_pos hm] at hs
              split at h
              · rename_i hk
                cases h
                obtain ⟨x, h1, h2, h3, h4⟩ := readKey_error hk
                exact ⟨x, by omega, by omega, by omega, h3, h4⟩
              · cases h
            · cases h

/-- Everything MASK can do. -/
theorem maskSlice_cases (buf : Buf) (s : State) :
    (s.fault ≠ 0 ∧ maskSlice buf s = .next s) ∨
    (s.fault = 0 ∧ ¬ maskInRange buf s ∧ maskSlice buf s = .next (raiseFault faultRange s)) ∨
    (s.fault = 0 ∧ maskInRange buf s ∧ maskFlag s.frameH1 = false ∧ maskSlice buf s = .next (maskCommit s)) ∨
    (s.fault = 0 ∧ maskInRange buf s ∧ maskFlag s.frameH1 = true ∧
      ∃ f, memReadBytes buf (bufMem buf s) s.mStart.toNat s.mN.toNat = .error f ∧ maskSlice buf s = .fault f) ∨
    (s.fault = 0 ∧ maskInRange buf s ∧ maskFlag s.frameH1 = true ∧
      ∃ bs, bs.length = s.mN.toNat ∧ holdsAt (bufMem buf s) s.mStart.toNat bs ∧
        maskSlice buf s = .next (maskCommit (setBufMem buf
          (memWriteBytes (bufMem buf s) s.mStart.toNat (xorSlice s.key s.mOff.toNat bs)) s))) := by
  unfold maskSlice maskInRange
  by_cases hf : s.fault = 0
  · have hh := (halted_false_iff s).2 hf
    by_cases hc : sliceOutside s.mStart s.mN (bufLimit buf s) (bufSize buf s) = true
    · have := (sliceOutside_iff _ _ _ _).1 hc
      right; left
      simp [hf, hh, hc]
      omega
    · have hc' := mt (sliceOutside_iff _ _ _ _).2 hc
      have hr : s.mStart.toNat + s.mN.toNat ≤ (bufLimit buf s).toNat ∧ (bufLimit buf s).toNat ≤ (bufSize buf s).toNat := by
        omega
      right; right
      cases hm : maskFlag s.frameH1 with
      | false =>
        left
        simp [hf, hh, hc, hr]
      | true =>
        right
        cases hb : memReadBytes buf (bufMem buf s) s.mStart.toNat s.mN.toNat with
        | error f =>
          left
          simp [hf, hh, hc, hr]
        | ok bs =>
          right
          obtain ⟨hl, hd⟩ := memReadBytes_ok.1 hb
          refine ⟨hf, hr, rfl, bs, hl, hd, ?_⟩
          simp [hh, hc]
  · left
    exact ⟨hf, by simp [(halted_iff s).2 hf]⟩

end Sys2Proof.Machine
end

