-- ==== Sys2Proof/Laws/Host.lean ====
section
/-! SUPPORT. The laws of the host port: the register map, one lemma per kind of host access, and what one step can do. -/

namespace Sys2Proof.Machine

/-- Each register has its own number (R34). -/
theorem regOfNumber_regNumber (r : Reg) : regOfNumber (regNumber r) = some r := by
  cases r <;> rfl

/-- A number names no register but the one whose number it is. -/
theorem regOfNumber_eq_some {n : Byte} {r : Reg} (h : regOfNumber n = some r) : n = regNumber r := by
  have := List.find?_some (p := fun r => regNumber r == n) h
  exact (beq_iff_eq.1 this).symm

theorem step_of_no_action {s : State} (h : s.actions = []) : step s = .next s := by
  simp [step, takeAction, h]

theorem step_of_action {s : State} {a : HostAction} {rest : List HostAction} (h : s.actions = a :: rest) :
    step s = perform a { s with actions := rest } := by
  simp [step, takeAction, h]

/-- A step takes the next action, if there is one, and performs it. -/
theorem step_cases (s : State) :
    (s.actions = [] ∧ step s = .next s) ∨
    (∃ a rest, s.actions = a :: rest ∧ step s = perform a { s with actions := rest }) := by
  cases h : s.actions with
  | nil => exact .inl ⟨rfl, step_of_no_action h⟩
  | cons a rest => exact .inr ⟨a, rest, rfl, step_of_action h⟩

/-- A byte that decodes as header byte 0 is the byte of the instruction it decodes to. -/
theorem encode_of_decodeHeader0 {b : Byte} {i : Instr} (h : decodeHeader0 b = .ok i) :
    encode i = b ∧ ∀ s, exec i s = .next (loadHeader0 b s) := by
  have key : header0Byte (finField b) (rsv1Field b) (rsv2Field b) (rsv3Field b) (opcodeField b) = b := by
    clear h
    revert b
    decide
  unfold decodeHeader0 at h
  simp only at h
  split at h
  · rename_i ho
    rw [ho] at key
    cases h
    exact ⟨key, fun s => by rw [← congrArg (loadHeader0 · s) key]; rfl⟩
  split at h
  · rename_i ho
    rw [ho] at key
    cases h
    exact ⟨key, fun s => by rw [← congrArg (loadHeader0 · s) key]; rfl⟩
  split at h
  · rename_i ho
    rw [ho] at key
    cases h
    exact ⟨key, fun s => by rw [← congrArg (loadHeader0 · s) key]; rfl⟩
  split at h
  · rename_i ho
    rw [ho] at key
    cases h
    exact ⟨key, fun s => by rw [← congrArg (loadHeader0 · s) key]; rfl⟩
  split at h
  · rename_i ho
    rw [ho] at key
    cases h
    exact ⟨key, fun s => by rw [← congrArg (loadHeader0 · s) key]; rfl⟩
  split at h
  · rename_i ho
    rw [ho] at key
    cases h
    exact ⟨key, fun s => by rw [← congrArg (loadHeader0 · s) key]; rfl⟩
  cases h

/-- A host write of FRAME_H0 loads the byte, whatever its opcode (R21, R86). -/
theorem headerWrite_eq (b : Byte) (s : State) : headerWrite b s = .next (loadHeader0 b s) := by
  unfold headerWrite
  split
  · rename_i i h
    exact (encode_of_decodeHeader0 h).2 s
  · rfl

/-- A host write of any register but CMD stores the value there. -/
theorem registerWrite_plain {r : Reg} (h : r ≠ .cmd) (v : Nat) (hv : v < 2 ^ regWidth r) (s : State) :
    registerWrite r v s = .next (writeReg r (BitVec.ofNat 64 v) s) := by
  cases r <;> try rfl
  · exact absurd rfl h
  · simp only [registerWrite, headerWrite_eq, writeReg]
    congr 2
    apply BitVec.eq_of_toNat_eq
    simp

/-- What a host write answers (R35): refused by name, a command, or the value stored. -/
theorem hostSet_cases (reg : Byte) (v : Nat) (s : State) :
    (∃ e, hostSet reg v s = .refused e) ∨
    (reg = commandPort ∧ v < 256 ∧ hostSet reg v s = commandWrite (BitVec.ofNat 8 v) s) ∨
    (∃ r, r ≠ .cmd ∧ reg = regNumber r ∧ hostWritable r = true ∧ v < 2 ^ regWidth r ∧
      hostSet reg v s = .next (writeReg r (BitVec.ofNat 64 v) s)) := by
  unfold hostSet
  split
  · exact .inl ⟨_, rfl⟩
  · rename_i r hr
    split
    · rename_i hw
      split
      · rename_i hv
        by_cases hc : r = .cmd
        · subst hc
          right; left
          exact ⟨regOfNumber_eq_some hr, hv, rfl⟩
        · right; right
          exact ⟨r, hc, regOfNumber_eq_some hr, hw, hv, registerWrite_plain hc v hv s⟩
      · exact .inl ⟨_, rfl⟩
    · exact .inl ⟨_, rfl⟩

/-- What a write of CMD answers (R149). -/
theorem commandWrite_cases (w : Byte) (s : State) :
    (∃ i, decodeCommand w = .ok i ∧ commandWrite w s = exec i s) ∨
    (∃ e, decodeCommand w = .error e ∧ s.fault ≠ 0 ∧ commandWrite w s = .next s) ∨
    (∃ e, decodeCommand w = .error e ∧ s.fault = 0 ∧ commandWrite w s = .next (raiseFault faultIllCmd s)) := by
  unfold commandWrite
  cases h : decodeCommand w with
  | ok i => exact .inl ⟨i, rfl, rfl⟩
  | error e =>
    by_cases hf : s.fault = 0
    · exact .inr (.inr ⟨e, rfl, hf, by simp [(halted_false_iff s).2 hf]⟩)
    · exact .inr (.inl ⟨e, rfl, hf, by simp [(halted_iff s).2 hf]⟩)

/-- A stored value is read back, zero-extended from the register's width. -/
theorem readReg_writeReg_same {r : Reg} (hw : hostWritable r = true) (hc : r ≠ .cmd) {v : Nat} (hv : v < 2 ^ regWidth r)
    (s : State) : readReg r (writeReg r (BitVec.ofNat 64 v) s) = BitVec.ofNat 64 v := by
  cases r <;> simp only [regWidth] at hv <;> simp [hostWritable] at hw hc <;>
    simp only [readReg, writeReg, loadHeader0_frameH0] <;> apply BitVec.eq_of_toNat_eq <;> simp <;> omega

/-- A store changes no other register. -/
theorem readReg_writeReg_other {r r' : Reg} (h : r' ≠ r) (v : Word) (s : State) :
    readReg r' (writeReg r v s) = readReg r' s := by
  cases r <;> cases r' <;> first | rfl | exact absurd rfl h

end Sys2Proof.Machine
end

