-- ==== Sys2Proof/Laws/PerInstr.lean ====
section
/-! SUPPORT. The per-instruction family RoundTrip: on the register an instruction's byte is written to, decoding its
encoding gives the instruction back. -/

namespace Sys2Proof.Laws.RoundTrip

/-- A well-formed instruction is what its own byte decodes to on its own register. -/
def Statement (i : Instr) : Prop :=
  i.wellFormed = true → decodePair (encodePort i) (encode i) = .ok i

theorem encode : Statement .encode := fun _ => rfl
theorem decode : Statement .decode := fun _ => rfl
theorem maskSrc : Statement .maskSrc := fun _ => rfl
theorem maskDst : Statement .maskDst := fun _ => rfl

theorem continuation (fin rsv1 rsv2 rsv3 : Bool) : Statement (.continuation fin rsv1 rsv2 rsv3) := by
  intro _
  revert fin rsv1 rsv2 rsv3
  decide

theorem text (fin rsv1 rsv2 rsv3 : Bool) : Statement (.text fin rsv1 rsv2 rsv3) := by
  intro _
  revert fin rsv1 rsv2 rsv3
  decide

theorem binary (fin rsv1 rsv2 rsv3 : Bool) : Statement (.binary fin rsv1 rsv2 rsv3) := by
  intro _
  revert fin rsv1 rsv2 rsv3
  decide

theorem close (fin rsv1 rsv2 rsv3 : Bool) : Statement (.close fin rsv1 rsv2 rsv3) := by
  intro _
  revert fin rsv1 rsv2 rsv3
  decide

theorem ping (fin rsv1 rsv2 rsv3 : Bool) : Statement (.ping fin rsv1 rsv2 rsv3) := by
  intro _
  revert fin rsv1 rsv2 rsv3
  decide

theorem pong (fin rsv1 rsv2 rsv3 : Bool) : Statement (.pong fin rsv1 rsv2 rsv3) := by
  intro _
  revert fin rsv1 rsv2 rsv3
  decide

end Sys2Proof.Laws.RoundTrip
end

