-- ==== Sys2Proof/Tests/Slice0.lean ====
section
/-! SUPPORT. Tests of one step each, their expected results from the vectors of spec/95_test_vectors.md (the id stands in the
docstring) or from the encodings of spec/30_encoding.md; well-formedness smoke tests; and for each obligation that has
hypotheses a state and operands that meet them together. -/

open Sys2Proof Sys2Proof.Machine

namespace Sys2Proof.Tests

/-! ### Helpers -/

/-- One value read from the next state; none where there is none. -/
def got {α : Type} (f : State → α) : Host.Outcome State Fault Refusal → Option α
  | .next t => some (f t)
  | .fault _ => none
  | .refused _ => none

/-- The fault an outcome ends in. -/
def faultOf : Host.Outcome State Fault Refusal → Option Fault
  | .next _ => none
  | .fault f => some f
  | .refused _ => none

/-- The refusal an outcome ends in. -/
def refusalOf : Host.Outcome State Fault Refusal → Option Refusal
  | .next _ => none
  | .fault _ => none
  | .refused r => some r

/-- The key K of spec/95_test_vectors.md. -/
def keyK : Key := { k0 := 0x37, k1 := 0xFA, k2 := 0x21, k3 := 0x3D }

/-- The key 01 02 03 04 of V-M16. -/
def key1 : Key := { k0 := 0x01, k1 := 0x02, k2 := 0x03, k3 := 0x04 }

/-- Reset with SRC_MAX = DST_MAX = 16. -/
def base : State := { State.reset with srcMax := 16, dstMax := 16 }

/-- The start of the ENCODE vectors. -/
def enc (h0 h1 : Byte) (len wcur cap : Word) : State :=
  { base with frameH0 := h0, frameH1 := h1, frameLen := len, key := keyK, wcur := wcur, cap := cap }

/-- The start of the DECODE vectors. -/
def dec (bytes : List Byte) (rcur : Word) : State :=
  { base with src := memWriteBytes [] 0 bytes, srcLen := BitVec.ofNat 64 bytes.length, rcur := rcur }

/-- The start of the MASK vectors, the bytes standing at M_START in both buffers. -/
def slice (h1 : Byte) (key : Key) (start n off : Word) (bytes : List Byte) : State :=
  { base with
    frameH1 := h1, key := key, mStart := start, mN := n, mOff := off, srcLen := 16, cap := 16
    src := memWriteBytes [] start.toNat bytes, dst := memWriteBytes [] start.toNat bytes }

/-- A state with one host action waiting. -/
def acting (a : HostAction) (s : State) : State := { s with actions := [a] }

/-- Eight zero bytes but the sixth, which is 1: the extended length 65536. -/
def ext65536 : List Byte := [0x00, 0x00, 0x00, 0x00, 0x00, 0x01, 0x00, 0x00]

/-- The header of V-D8 and V-E8. -/
def longHeader : List Byte := [0x81, 0xFF] ++ ext65536 ++ [0x37, 0xFA, 0x21, 0x3D]

/-! ### Decoding, words written out from the encodings -/

/-- R90: 000, BSEL 0, OP 0001. -/
theorem test_decode_encode : decodeCommand 0b00000001#8 = .ok .encode := by rfl
/-- R90: 000, BSEL 0, OP 0010. -/
theorem test_decode_decode : decodeCommand 0b00000010#8 = .ok .decode := by rfl
/-- R90: 000, BSEL 0, OP 0011. -/
theorem test_decode_mask_src : decodeCommand 0b00000011#8 = .ok .maskSrc := by rfl
/-- R90: 000, BSEL 1, OP 0011. -/
theorem test_decode_mask_dst : decodeCommand 0b00010011#8 = .ok .maskDst := by rfl
/-- R80: FIN 0, RSV 101, opcode 0000. -/
theorem test_decode_continuation : decodeHeader0 0b01010000#8 = .ok (.continuation false true false true) := by rfl
/-- R81: FIN 1, RSV 000, opcode 0001. -/
theorem test_decode_text : decodeHeader0 0b10000001#8 = .ok (.text true false false false) := by rfl
/-- R82: FIN 0, RSV 010, opcode 0010. -/
theorem test_decode_binary : decodeHeader0 0b00100010#8 = .ok (.binary false false true false) := by rfl
/-- R83: FIN 1, RSV 001, opcode 1000. -/
theorem test_decode_close : decodeHeader0 0b10011000#8 = .ok (.close true false false true) := by rfl
/-- R84: FIN 0, RSV 100, opcode 1001. -/
theorem test_decode_ping : decodeHeader0 0b01001001#8 = .ok (.ping false true false false) := by rfl
/-- R85: FIN 1, RSV 111, opcode 1010. -/
theorem test_decode_pong : decodeHeader0 0b11111010#8 = .ok (.pong true true true true) := by rfl
/-- R91, V-C4 and V-C5: a bit of 7:5 set. -/
theorem test_reject_reserved_bits :
    decodeCommand 0b00100011#8 = .error .reservedBits ∧ decodeCommand 0b10000011#8 = .error .reservedBits := ⟨rfl, rfl⟩
/-- R91, V-C1 and V-C6: OP 0x0, 0x4 and 0xF. -/
theorem test_reject_reserved_op :
    decodeCommand 0b00000000#8 = .error .reservedOp ∧ decodeCommand 0b00000100#8 = .error .reservedOp ∧
    decodeCommand 0b00001111#8 = .error .reservedOp := ⟨rfl, rfl, rfl⟩
/-- R91, V-C2 and V-C3: BSEL with ENCODE and with DECODE. -/
theorem test_reject_buffer_select :
    decodeCommand 0b00010001#8 = .error .bufferSelect ∧ decodeCommand 0b00010010#8 = .error .bufferSelect := ⟨rfl, rfl⟩
/-- R86: 0x3 to 0x7 and 0xB to 0xF name no opcode. -/
theorem test_reject_unnamed_opcode :
    decodeHeader0 0b10000011#8 = .error .unnamedOpcode ∧ decodeHeader0 0b10000111#8 = .error .unnamedOpcode ∧
    decodeHeader0 0b10001011#8 = .error .unnamedOpcode ∧ decodeHeader0 0b10001111#8 = .error .unnamedOpcode :=
  ⟨rfl, rfl, rfl, rfl⟩
/-- R34: FRAME_H1 takes no instruction; no bytes hold none. -/
theorem test_reject_no_instruction :
    decodePair 0x09 0x01 = .error .notAnInstructionPort ∧ decodeBytes [] = .error .noByte := ⟨rfl, rfl⟩
/-- Log entry 2: without its register the byte 0x01 is ENCODE, and a TEXT byte with FIN is TEXT. -/
theorem test_table_words :
    decodeTableWord 8 0x01 = some .encode ∧ decodeTableWord 8 0x81 = some (.text true false false false) ∧
    decodeTableWord 8 0x00 = some (.continuation false false false false) ∧ decodeTableWord 8 0x04 = none :=
  ⟨rfl, rfl, rfl, rfl⟩

/-! ### Well-formedness -/

/-- R89, R71: a command and a header byte are well formed at every field value. -/
theorem test_wf_instr : Instr.wellFormed .maskDst = true ∧ Instr.wellFormed (.pong true true true true) = true := ⟨rfl, rfl⟩
/-- R34, R35, V-C15: an unassigned register number is refused by the check. -/
theorem test_wf_unassigned :
    HostAction.wellFormed (.set 0x06 1) = false ∧ HostAction.wellFormed (.get 0x17) = false ∧
    HostAction.wellFormed (.expectReg 0x0F 0) = false := ⟨rfl, rfl, rfl⟩
/-- R35, V-C14: a write of a read-only register is refused by the check. -/
theorem test_wf_read_only : HostAction.wellFormed (.set 0x01 0) = false ∧ HostAction.wellFormed (.set 0x02 0) = false := ⟨rfl, rfl⟩
/-- R35, V-C16: a read of CMD is refused by the check. -/
theorem test_wf_write_only : HostAction.wellFormed (.get 0x00) = false := rfl
/-- R35, V-C17: a value that does not fit is refused by the check, and the widest that fits is not. -/
theorem test_wf_width :
    HostAction.wellFormed (.set 0x08 0x100) = false ∧ HostAction.wellFormed (.set 0x08 0xFF) = true ∧
    HostAction.wellFormed (.maskAt .src (2 ^ 64) 0 0) = false := by decide

/-! ### Instructions -/

/-- V-E8. -/
theorem test_encode_masked_64_bit_length :
    got (fun t => (t.dst, t.wcur, t.frameH1, t.resWritten)) (exec .encode (enc 0x81 0x80 65536 0 16)) =
      some (memWriteBytes [] 0 longHeader, 14, 0xFF, 14) := by decide
/-- V-E20. -/
theorem test_encode_short_writes_nothing :
    got (fun t => (t.dst, t.wcur, t.status, t.resWritten)) (exec .encode (enc 0x81 0x80 5 0 5)) =
      some ([], 0, 0xFE, 0) := by decide
/-- V-D8. -/
theorem test_decode_masked_64_bit_length :
    got (fun t => (t.frameH0, t.frameH1, t.frameLen, t.key, t.rcur, t.resConsumed)) (exec .decode (dec longHeader 0)) =
      some (0x81, 0xFF, 65536, keyK, 14, 14) := by decide
/-- V-D17. -/
theorem test_decode_short_commits_nothing :
    got (fun t => (t.frameH0, t.frameLen, t.rcur, t.status)) (exec .decode (dec (longHeader.take 13) 0)) =
      some (0x00, 0, 0, 0xFF) := by decide
/-- V-M6. -/
theorem test_mask_src_lanes_wrap :
    got (fun t => (t.src, t.resMasked)) (exec .maskSrc (slice 0x85 keyK 0 2 0xFFFFFFFFFFFFFFFF [0x00, 0x00])) =
      some ([(0, 0x3D), (1, 0x37)], 2) := by decide
/-- V-M14. -/
theorem test_mask_src_range :
    got (fun t => (t.fault, t.src)) (exec .maskSrc (slice 0x85 keyK 14 3 0 [0x41])) =
      some (0x01, [(14, 0x41)]) := by decide
/-- V-M16. -/
theorem test_mask_dst_payload :
    got (fun t => (t.dst, t.src)) (exec .maskDst (slice 0x83 key1 6 3 0 [0x61, 0x62, 0x63])) =
      some ([(6, 0x60), (7, 0x60), (8, 0x60)], [(6, 0x61), (7, 0x62), (8, 0x63)]) := by decide
/-- V-M17. -/
theorem test_mask_dst_range :
    got (fun t => (t.fault, t.status)) (exec .maskDst { slice 0x85 keyK 0 4 0 [] with cap := 3 }) =
      some (0x01, 0x00) := by decide
/-- V-M18. -/
theorem test_mask_unwritten_byte :
    faultOf (exec .maskSrc (slice 0x85 keyK 0 4 0 [0x01, 0x02])) = some (.unwrittenByte .src 2) := by decide
/-- V-D27. -/
theorem test_decode_unwritten_byte :
    faultOf (exec .decode { dec [0x82] 0 with srcLen := 2 }) = some (.unwrittenByte .src 1) := by decide
/-- R80: a CONTINUATION byte with FIN and RSV2. -/
theorem test_continuation_byte : got State.frameH0 (exec (.continuation true false true false) base) = some 0xA0 := by rfl
/-- R81: FIN, TEXT is 0x81. -/
theorem test_text_byte : got State.frameH0 (exec (.text true false false false) base) = some 0x81 := by rfl
/-- R82: FIN, BINARY is 0x82. -/
theorem test_binary_byte : got State.frameH0 (exec (.binary true false false false) base) = some 0x82 := by rfl
/-- R83, S5: FIN, CLOSE is 0x88. -/
theorem test_close_byte : got State.frameH0 (exec (.close true false false false) base) = some 0x88 := by rfl
/-- R84, V-D19: PING without FIN is 0x09. -/
theorem test_ping_byte : got State.frameH0 (exec (.ping false false false false) base) = some 0x09 := by rfl
/-- R85, P3: FIN, PONG is 0x8A. -/
theorem test_pong_byte : got State.frameH0 (exec (.pong true false false false) base) = some 0x8A := by rfl

/-! ### Host actions and whole steps -/

/-- V-C7. -/
theorem test_illcmd_before_range :
    got State.fault (step (acting (.set 0x00 0x12) { base with rcur := 3 })) = some 0x02 := by decide
/-- V-C8. -/
theorem test_range_before_short :
    got State.fault (step (acting (.set 0x00 0x02) (dec [0x81] 2))) = some 0x01 := by decide
/-- P4, line 6. -/
theorem test_halted_keeps_its_fault :
    got State.fault (step (acting (.set 0x00 0x04) { base with fault := 0x01 })) = some 0x01 := by decide
/-- V-C14 to V-C17. -/
theorem test_refusals :
    refusalOf (step (acting (.set 0x02 0) base)) = some (.readOnlyRegister 0x02) ∧
    refusalOf (step (acting (.get 0x17) base)) = some (.unassignedRegister 0x17) ∧
    refusalOf (step (acting (.get 0x00) base)) = some (.writeOnlyRegister 0x00) ∧
    refusalOf (step (acting (.set 0x08 0x100) base)) = some (.valueTooWide 0x08 0x100) := by decide
/-- V-B1, V-B2 and V-B7: the cursor past the bytes, or no result. -/
theorem test_append :
    (match append [] 4 8 [0x7E, 0x00, 0x7E] with
      | .ok (d, w) => d = [(4, 0x7E), (5, 0x00), (6, 0x7E)] ∧ w = 7
      | .short => False
      | .outside => False) ∧
    append [] 4 6 [0x7E, 0x00, 0x7E] = .short ∧ append [] 7 6 [0x00] = .outside := ⟨⟨rfl, rfl⟩, rfl, rfl⟩
/-- V-B4 to V-B6. -/
theorem test_consume :
    consume 2 [(0, 0x81)] 0 1 = .ok .short ∧
    consume 2 [(0, 0x81), (1, 0x05)] 0 2 = .ok (.ok ([0x81, 0x05], 2)) ∧
    consume 0 [] 5 5 = .ok (.ok ([], 5)) := ⟨rfl, rfl, rfl⟩
/-- V-C12 and V-C13, with every buffer size: a placed word runs as the first instruction after reset. -/
theorem test_placed_word_runs_from_reset :
    got State.status (step (State.reset.withFetchWord 8 0x01)) = some 0xFE ∧
    got State.status (step (State.reset.withFetchWord 8 0x13)) = some 0x00 ∧
    got State.frameH0 (step (State.reset.withFetchWord 8 0x81)) = some 0x81 := ⟨rfl, rfl, rfl⟩

/-! ### Witnesses: what meets the hypotheses of each obligation, clause by clause, at the ends of the ranges -/

/-- A block halted with RANGE. -/
def haltedState : State := { dec [0x82, 0x00] 0 with fault := 0x01 }

/-- The state an outcome answers; `base` where it answers none. -/
def nextOf : Host.Outcome State Fault Refusal → State
  | .next t => t
  | .fault _ => base
  | .refused _ => base

theorem memBelow_written (bytes : List Byte) (bound : Nat) (h : bytes.length ≤ bound) :
    memBelow (memWriteBytes [] 0 bytes) bound :=
  memBelow_memWriteBytes [] 0 bound bytes (fun _ h => absurd rfl h) (fun _ => by omega)

theorem memWritten_bytes (a : Nat) (bytes : List Byte) : memWritten (memWriteBytes [] a bytes) a bytes.length := by
  intro x h1 h2
  have := holdsAt_memWriteBytes [] a bytes (x - a) (by omega)
  rw [show a + (x - a) = x by omega] at this
  rw [this, List.getElem?_eq_getElem (by omega)]
  exact Option.some_ne_none _

theorem witness_ResetLeavesRegistersZeroAndBuffersEmpty : Reg.fault ≠ .cmd ∧ Reg.mOff ≠ .cmd := by decide

theorem witness_ResetActionRestoresTheResetState :
    (acting .reset haltedState).actions = .reset :: [] ∧ (acting .reset haltedState).fault ≠ 0 := by decide

theorem witness_WaitingBlockStaysAsItIs : haltedState.actions = [] := rfl

theorem witness_StepRunsTheDecodedInstruction :
    ((acting (.set 0x00 0x13) base).actions = .set 0x00 (0x13#8).toNat :: [] ∧ decodePair 0x00 0x13 = .ok .maskDst) ∧
    ((acting (.set 0x08 0xFA) base).actions = .set 0x08 (0xFA#8).toNat :: [] ∧
      decodePair 0x08 0xFA = .ok (.pong true true true true)) := ⟨⟨rfl, rfl⟩, ⟨rfl, rfl⟩⟩

theorem witness_AssembledInstructionRuns :
    (acting (.set 0x00 0x01) base).actions = instrAction .encode :: [] ∧
    (acting (.set 0x08 0x01) base).actions = instrAction (.text false false false false) :: [] := ⟨rfl, rfl⟩

theorem witness_PlacedTableWordRunsNext :
    decodeTableWord 8 0x03 = some .maskSrc ∧ decodeTableWord 8 0x8A = some (.pong true false false false) := ⟨rfl, rfl⟩

theorem witness_DecodingInvertsEncoding :
    Instr.wellFormed .decode = true ∧ decodePair 0x00 0x02 = .ok .decode ∧
    decodePair 0x08 0x02 = .ok (.binary false false false false) := ⟨rfl, rfl, rfl⟩

theorem witness_ReservedCommandWordSetsIllcmd :
    (acting (.set 0x00 0x12) base).actions = .set 0x00 (0x12#8).toNat :: [] ∧ (acting (.set 0x00 0x12) base).fault = 0 ∧
    (0x12#8) ≠ 0x01 ∧ (0x12#8) ≠ 0x02 ∧ (0x12#8) ≠ 0x03 ∧ (0x12#8) ≠ 0x13 := by decide

theorem witness_HaltedBlockIgnoresEveryCommandWord :
    (acting (.set 0x00 0x02) haltedState).actions = .set 0x00 (0x02#8).toNat :: [] ∧
    (acting (.set 0x00 0x02) haltedState).fault ≠ 0 := by decide

theorem witness_OnlyResetEndsAHalt :
    (haltedState.fault ≠ 0 ∧ step (acting .reset haltedState) = .next (resetBlock haltedState) ∧
      (acting .reset haltedState).actions.head? = some .reset) ∧
    (haltedState.fault ≠ 0 ∧ step (acting (.set 0x00 0x04) haltedState) = .next haltedState ∧
      (acting (.set 0x00 0x04) haltedState).actions.head? ≠ some .reset) :=
  ⟨⟨by decide, rfl, rfl⟩, ⟨by decide, rfl, by decide⟩⟩

/-- V-E22, V-E23, V-D24, V-D25, V-M14, V-M15, V-M17, then ENCODE with WCUR = CAP = DST_MAX, then V-D23. -/
theorem witness_OutOfRangeCommandSetsRangeAlone :
    (enc 0x82 0x00 0 5 4).wcur.toNat > (enc 0x82 0x00 0 5 4).cap.toNat ∧
    (enc 0x82 0x00 0 0 17).cap.toNat > (enc 0x82 0x00 0 0 17).dstMax.toNat ∧
    (dec [0x82, 0x00] 3).rcur.toNat > (dec [0x82, 0x00] 3).srcLen.toNat ∧
    ({ base with srcLen := 17 } : State).srcLen.toNat > base.srcMax.toNat ∧
    (slice 0x85 keyK 14 3 0 []).mStart.toNat + (slice 0x85 keyK 14 3 0 []).mN.toNat > (slice 0x85 keyK 14 3 0 []).srcLen.toNat ∧
    (slice 0x85 keyK 14 3 0 []).mStart.toNat + (slice 0x85 keyK 14 3 0 []).mN.toNat > (slice 0x85 keyK 14 3 0 []).cap.toNat ∧
    ({ base with cap := 17 } : State).cap.toNat > base.dstMax.toNat ∧ base.fault = 0 ∧ (enc 0x82 0x00 0 5 4).fault = 0 ∧
    (dec [0x82, 0x00] 3).fault = 0 ∧ (slice 0x85 keyK 14 3 0 []).fault = 0 ∧
    (¬ rangeFails .encode (enc 0x82 0x00 0 16 16) ∧
      got State.fault (exec .encode (enc 0x82 0x00 0 16 16)) = some 0) ∧
    ((dec [0x82, 0x00] 2).rcur = (dec [0x82, 0x00] 2).srcLen ∧
      (dec [0x82, 0x00] 2).srcLen.toNat ≤ (dec [0x82, 0x00] 2).srcMax.toNat) := by
  refine ⟨by decide, by decide, by decide, by decide, by decide, by decide, by decide, rfl, rfl, rfl, rfl, ⟨?_, by decide⟩, by decide⟩
  unfold rangeFails
  decide

theorem witness_CommandChecksComeInOrder :
    ((acting (.set 0x00 0x02) haltedState).actions = .set 0x00 (0x02#8).toNat :: [] ∧ haltedState.fault ≠ 0) ∧
    (base.fault = 0 ∧ ∀ i, decodeCommand 0x00 ≠ .ok i) ∧
    ((dec [0x81] 2).fault = 0 ∧ decodeCommand 0x02 = .ok .decode ∧ rangeFails .decode (dec [0x81] 2)) ∧
    ((dec [0x81] 0).fault = 0 ∧ ¬ rangeFails .decode (dec [0x81] 0) ∧ got State.status (exec .decode (dec [0x81] 0)) = some 0xFF) ∧
    ((enc 0x81 0x80 5 10 16).fault = 0 ∧ ¬ rangeFails .encode (enc 0x81 0x80 5 10 16) ∧
      got State.status (exec .encode (enc 0x81 0x80 5 10 16)) = some 0x00) ∧
    ((slice 0x85 keyK 16 0 0 []).fault = 0 ∧ ¬ rangeFails .maskSrc (slice 0x85 keyK 16 0 0 []) ∧
      got State.status (exec .maskSrc (slice 0x85 keyK 16 0 0 [])) = some 0x00) ∧
    ((slice 0x85 keyK 12 4 0 [0x41, 0x42, 0x43, 0x44]).fault = 0 ∧
      ¬ rangeFails .maskDst (slice 0x85 keyK 12 4 0 [0x41, 0x42, 0x43, 0x44]) ∧
      got State.status (exec .maskDst (slice 0x85 keyK 12 4 0 [0x41, 0x42, 0x43, 0x44])) = some 0x00) := by
  refine ⟨⟨rfl, by decide⟩, ⟨rfl, fun i h => by cases h⟩, ⟨rfl, rfl, ?_⟩, ⟨rfl, ?_, by decide⟩, ⟨rfl, ?_, by decide⟩,
    ⟨rfl, ?_, by decide⟩, ⟨rfl, ?_, by decide⟩⟩ <;>
    (unfold rangeFails; decide)

theorem witness_InstructionsStopOnlyOnUnwrittenBytes :
    memWritten (dec [0x82, 0x00] 0).src 0 (dec [0x82, 0x00] 0).srcLen.toNat ∧
    memWritten (dec [0x82, 0x00] 0).dst 0 (dec [0x82, 0x00] 0).cap.toNat :=
  ⟨memWritten_bytes 0 [0x82, 0x00], fun x _ h => absurd h (Nat.not_lt_zero x)⟩

/-- The second clause is V-D27. -/
theorem witness_ReadingAnUnwrittenByteFaults :
    (base.fault = 0 ∧ decodeInRange { base with srcLen := 2 } ∧ 2 ≤ available { base with srcLen := 2 } ∧ memRead base.src 0 = none) ∧
    ((dec [0x82] 0).fault = 0 ∧ decodeInRange { dec [0x82] 0 with srcLen := 2 } ∧
      2 ≤ available { dec [0x82] 0 with srcLen := 2 } ∧ memRead (dec [0x82] 0).src 0 = some 0x82 ∧
      memRead (dec [0x82] 0).src (0 + 1) = none) ∧
    ((dec [0x82, 0x7E, 0x00] 0).fault = 0 ∧ decodeInRange { dec [0x82, 0x7E, 0x00] 0 with srcLen := 4 } ∧
      memRead (dec [0x82, 0x7E, 0x00] 0).src 0 = some 0x82 ∧
      memRead (dec [0x82, 0x7E, 0x00] 0).src 1 = some 0x7E ∧ hsize 0x7E ≤ available { dec [0x82, 0x7E, 0x00] 0 with srcLen := 4 } ∧
      0 + 2 ≤ 3 ∧ 3 < 0 + hsize 0x7E ∧ memRead (dec [0x82, 0x7E, 0x00] 0).src 3 = none ∧
      memRead (dec [0x82, 0x7E, 0x00] 0).src 2 ≠ none) ∧
    ((slice 0x85 keyK 12 4 0 [0x41]).fault = 0 ∧ maskInRange .dst (slice 0x85 keyK 12 4 0 [0x41]) ∧
      maskFlag (slice 0x85 keyK 12 4 0 [0x41]).frameH1 = true ∧
      memRead (slice 0x85 keyK 12 4 0 [0x41]).dst 13 = none ∧ memRead (slice 0x85 keyK 12 4 0 [0x41]).dst 12 ≠ none) := by
  unfold decodeInRange maskInRange
  decide

theorem witness_FrameOpcodeSetsHeaderByte0Alone :
    (Instr.continuation true true true true, 0x0#4) ∈
      [(Instr.continuation true true true true, 0x0#4), (Instr.text true true true true, 0x1#4),
       (Instr.binary true true true true, 0x2#4), (Instr.close true true true true, 0x8#4),
       (Instr.ping true true true true, 0x9#4), (Instr.pong true true true true, 0xA#4)] ∧
    (Instr.pong false false false false, 0xA#4) ∈
      [(Instr.continuation false false false false, 0x0#4), (Instr.text false false false false, 0x1#4),
       (Instr.binary false false false false, 0x2#4), (Instr.close false false false false, 0x8#4),
       (Instr.ping false false false false, 0x9#4), (Instr.pong false false false false, 0xA#4)] := by decide

theorem witness_CommandsTreatEveryHeaderByte0Alike :
    got (fun t => (t.rcur, t.frameH0)) (exec .decode (dec [0x8B, 0x00] 0)) = some (2, 0x8B) ∧
    got (fun t => (t.rcur, t.frameH0)) (exec .decode (dec [0x8B] 0)) = some (0, 0x00) ∧
    got State.wcur (exec .encode (enc 0x8F 0x00 0 0 16)) = some 2 := by decide

theorem witness_EncoderPicksTheShortestLength :
    (125#64).toNat < 126 ∧ (126 ≤ (126#64).toNat ∧ (65535#64).toNat < 65536) ∧ 65536 ≤ (65536#64).toNat ∧
    ([0x00, 0x05] : List Byte).length = ext 126 ∧ assembleLen 126 [0x00, 0x05] = 5 := by decide

theorem witness_LengthIsAssembledBigEndian :
    ([] : List Byte).length = ext 125 ∧ ([0x00, 0x7E] : List Byte).length = ext 126 ∧ ext65536.length = ext 127 := by decide

theorem witness_EncodedHeaderLayout :
    lenIndField 0xFE = lenind 126 ∧ 1 < ext (lenIndField 0xFE) ∧ maskFlag 0xFE = true ∧ 3 < 4 := by decide

/-- V-E14, an exact fit. -/
theorem witness_EncodeWritesTheHeader :
    (enc 0x81 0x80 5 10 16).fault = 0 ∧ (enc 0x81 0x80 5 10 16).wcur.toNat ≤ (enc 0x81 0x80 5 10 16).cap.toNat ∧
    (enc 0x81 0x80 5 10 16).cap.toNat ≤ (enc 0x81 0x80 5 10 16).dstMax.toNat ∧
    hsize (withLenInd (enc 0x81 0x80 5 10 16).frameH1 (lenind (enc 0x81 0x80 5 10 16).frameLen)) ≤
      (enc 0x81 0x80 5 10 16).cap.toNat - (enc 0x81 0x80 5 10 16).wcur.toNat := by decide

/-- V-E20, short by one byte; and a row that is not ENCODE in a state that holds the status. -/
theorem witness_EncodeShortOfSpaceWritesNothing :
    ((enc 0x81 0x80 5 0 5).fault = 0 ∧ (enc 0x81 0x80 5 0 5).wcur.toNat ≤ (enc 0x81 0x80 5 0 5).cap.toNat ∧
      (enc 0x81 0x80 5 0 5).cap.toNat ≤ (enc 0x81 0x80 5 0 5).dstMax.toNat ∧
      (enc 0x81 0x80 5 0 5).cap.toNat - (enc 0x81 0x80 5 0 5).wcur.toNat <
        hsize (withLenInd (enc 0x81 0x80 5 0 5).frameH1 (lenind (enc 0x81 0x80 5 0 5).frameLen))) ∧
    (Instr.ping true false false false ≠ .encode ∧
      got State.status (exec (.ping true false false false) { base with status := 0xFE }) = some 0xFE) := by decide

/-- V-E9. -/
theorem witness_EncodeOverwritesTheLengthIndicator :
    (enc 0x82 0x7F 3 0 16).fault = 0 ∧
    got (fun t => (t.fault, t.status)) (exec .encode (enc 0x82 0x7F 3 0 16)) = some (0, 0x00) := by decide

/-- P2: short by one byte, then room. -/
theorem witness_EncodeRetryWritesTheSameHeader :
    (enc 0x81 0x00 126 0 3).fault = 0 ∧
    exec .encode (enc 0x81 0x00 126 0 3) = .next (encodeFail (enc 0x81 0x00 126 0 3)) ∧
    (encodeFail (enc 0x81 0x00 126 0 3)).fault = 0 ∧ (encodeFail (enc 0x81 0x00 126 0 3)).status = 0xFE ∧
    sameFrame (encodeFail (enc 0x81 0x00 126 0 3)) { encodeFail (enc 0x81 0x00 126 0 3) with cap := 4 } ∧
    encodeInRange { encodeFail (enc 0x81 0x00 126 0 3) with cap := 4 } ∧
    hsize (withLenInd (enc 0x81 0x00 126 0 3).frameH1 (lenind (enc 0x81 0x00 126 0 3).frameLen)) ≤
      room { encodeFail (enc 0x81 0x00 126 0 3) with cap := 4 } :=
  ⟨rfl, rfl, rfl, rfl, ⟨rfl, rfl, rfl, rfl⟩, ⟨by decide, by decide⟩, by decide⟩

/-- V-D8 with a key, V-D6 without. -/
theorem witness_DecodeParsesTheHeader :
    ((dec longHeader 0).fault = 0 ∧ (dec longHeader 0).rcur.toNat ≤ (dec longHeader 0).srcLen.toNat ∧
      (dec longHeader 0).srcLen.toNat ≤ (dec longHeader 0).srcMax.toNat ∧ hsize 0xFF ≤ (dec longHeader 0).srcLen.toNat - 0 ∧
      memRead (dec longHeader 0).src 0 = some 0x81 ∧ memRead (dec longHeader 0).src 1 = some 0xFF ∧
      ext65536.length = ext (lenIndField 0xFF) ∧ holdsAt (dec longHeader 0).src 2 ext65536 ∧ maskFlag 0xFF = true ∧
      ∀ k, k < 4 → memRead (dec longHeader 0).src (0 + 2 + ext (lenIndField 0xFF) + k) = some (keyLane keyK k)) ∧
    (hsize 0x7F ≤ (dec (longHeader.take 10) 0).srcLen.toNat - 0 ∧ maskFlag 0x7F = false ∧
      ext65536.length = ext (lenIndField 0x7F)) := by
  unfold holdsAt
  decide

/-- V-D13 and V-D17. -/
theorem witness_DecodeShortOfInputCommitsNothing :
    headerShort (dec [0x81] 0) ∧ headerShort (dec (longHeader.take 13) 0) ∧ (dec (longHeader.take 13) 0).fault = 0 ∧
    (dec (longHeader.take 13) 0).srcLen.toNat ≤ (dec (longHeader.take 13) 0).srcMax.toNat := by
  refine ⟨.inl (by decide), .inr ⟨0x81, 0xFF, by decide, by decide, by decide⟩, rfl, by decide⟩

/-- V-D22: the same two bytes at address 0 and at address 3. -/
theorem witness_DecodeDependsOnTheUnreadBytesAlone :
    (dec [0x82, 0x00] 0).fault = 0 ∧ (dec [0x82, 0x01, 0x41, 0x82, 0x00] 3).fault = 0 ∧
    decodeInRange (dec [0x82, 0x00] 0) ∧ decodeInRange (dec [0x82, 0x01, 0x41, 0x82, 0x00] 3) ∧
    available (dec [0x82, 0x01, 0x41, 0x82, 0x00] 3) = available (dec [0x82, 0x00] 0) ∧
    (∀ j, j < available (dec [0x82, 0x00] 0) →
      memRead (dec [0x82, 0x01, 0x41, 0x82, 0x00] 3).src (3 + j) = memRead (dec [0x82, 0x00] 0).src (0 + j)) ∧
    got State.status (exec .decode (dec [0x82, 0x00] 0)) = some 0x00 := by
  unfold decodeInRange available
  decide

/-- P5, lines 4 and 5. -/
theorem witness_DecodeRetryAfterFeedIsExact :
    got (fun t => (t.fault, t.status)) (exec .decode (dec [0x81, 0xFE] 0)) = some (0, 0xFF) ∧
    (dec [0x81, 0xFE] 0).srcLen.toNat + ([0x00] : List Byte).length ≤ (dec [0x81, 0xFE] 0).srcMax.toNat := by decide

theorem witness_FailedCommandRepeatsItsResult :
    got (fun t => (t.fault, t.status)) (exec .decode (dec [0x81] 0)) = some (0, 0xFF) ∧
    got (fun t => (t.fault, t.status)) (exec .encode (enc 0x82 0x00 126 0 3)) = some (0, 0xFE) := by decide

theorem witness_KeyIsNotReadWhileUnmasked : maskFlag (slice 0x05 keyK 0 1 0 [0x7F]).frameH1 = false := by decide

/-- V-E8 into V-D8. -/
theorem witness_DecodeOfEncodedFrameIsTheFrame :
    got (fun t => (t.fault, t.status, t.resWritten)) (exec .encode (enc 0x81 0x80 65536 0 16)) = some (0, 0x00, 14) ∧
    (dec longHeader 0).fault = 0 ∧ decodeInRange (dec longHeader 0) ∧ 14 ≤ available (dec longHeader 0) ∧
    ∀ j, j < 14 → memRead (dec longHeader 0).src (0 + j) =
      memRead (nextOf (exec .encode (enc 0x81 0x80 65536 0 16))).dst (0 + j) := by
  unfold decodeInRange
  decide

/-- V-D9, a longer spelling, and V-D4, the shortest; both encoded again. -/
theorem witness_EncodeOfDecodedFrameIsMinimal :
    (got (fun t => (t.fault, t.status, t.frameLen, t.frameH1)) (exec .decode (dec [0x82, 0x7E, 0x00, 0x05] 0)) =
        some (0, 0x00, 5, 0x7E) ∧ lenIndField 0x7E ≠ lenind 5) ∧
    (got (fun t => (t.fault, t.status, t.frameLen, t.frameH1)) (exec .decode (dec [0x82, 0x7E, 0x00, 0x7E] 0)) =
        some (0, 0x00, 126, 0x7E) ∧ lenIndField 0x7E = lenind 126) ∧
    (sameFrame (nextOf (exec .decode (dec [0x82, 0x7E, 0x00, 0x05] 0)))
        { nextOf (exec .decode (dec [0x82, 0x7E, 0x00, 0x05] 0)) with cap := 16 } ∧
      got (fun u => (u.fault, u.status))
        (exec .encode { nextOf (exec .decode (dec [0x82, 0x7E, 0x00, 0x05] 0)) with cap := 16 }) = some (0, 0x00)) :=
  ⟨by decide, by decide, ⟨rfl, rfl, rfl, rfl⟩, by rfl⟩

theorem witness_DecodeIsItsChainOfConsumes :
    memWritten (dec [0x82, 0x00] 0).src (dec [0x82, 0x00] 0).rcur.toNat (available (dec [0x82, 0x00] 0)) :=
  memWritten_bytes 0 [0x82, 0x00]

/-- V-B7, V-B1 and V-B2. -/
theorem witness_AppendWritesAllOrNothing :
    6 < 7 ∧ (4 ≤ 8 ∧ ([0x7E, 0x00, 0x7E] : List Byte).length ≤ 8 - 4) ∧
    (4 ≤ 6 ∧ 6 - 4 < ([0x7E, 0x00, 0x7E] : List Byte).length) := by decide

/-- V-D24's cursor, V-B5 and V-B4. -/
theorem witness_ConsumeReadsAllOrNothing :
    2 < 3 ∧ (0 ≤ 2 ∧ 2 ≤ 2 - 0 ∧ memWritten (memWriteBytes [] 0 [0x81, 0x05]) 0 2) ∧ (0 ≤ 1 ∧ 1 - 0 < 2) :=
  ⟨by decide, ⟨by decide, by decide, memWritten_bytes 0 [0x81, 0x05]⟩, by decide⟩

theorem witness_ConsumeOfAnUnwrittenByteFaults :
    0 ≤ 2 ∧ 2 ≤ 2 - 0 ∧ 0 ≤ 1 ∧ 1 < 0 + 2 ∧ memRead [(0, 0x81)] 1 = none ∧
    ∀ y, 0 ≤ y → y < 1 → memRead [(0, 0x81)] y ≠ none := by
  refine ⟨by decide, by decide, by decide, by decide, rfl, fun y _ h => ?_⟩
  obtain rfl : y = 0 := by omega
  decide

/-- V-M13, the slice that ends at the limit, in both buffers. -/
theorem witness_MaskXorsTheSlice :
    ∀ buf, (slice 0x85 keyK 12 4 0 [0x41, 0x42, 0x43, 0x44]).fault = 0 ∧
      maskInRange buf (slice 0x85 keyK 12 4 0 [0x41, 0x42, 0x43, 0x44]) ∧
      maskFlag (slice 0x85 keyK 12 4 0 [0x41, 0x42, 0x43, 0x44]).frameH1 = true ∧
      memWritten (bufMem buf (slice 0x85 keyK 12 4 0 [0x41, 0x42, 0x43, 0x44])) 12 4 := by
  intro buf
  refine ⟨rfl, ?_, by decide, ?_⟩
  · cases buf <;> exact ⟨by decide, by decide⟩
  · cases buf <;> exact memWritten_bytes 12 [0x41, 0x42, 0x43, 0x44]

/-- V-M9, and V-M19's unwritten bytes. -/
theorem witness_MaskWithoutTheFlagTouchesNoByte :
    (slice 0x04 keyK 0 4 0 [0x41, 0x42]).fault = 0 ∧
    maskInRange .src (slice 0x04 keyK 0 4 0 [0x41, 0x42]) ∧ maskInRange .dst (slice 0x04 keyK 0 4 0 [0x41, 0x42]) ∧
    maskFlag (slice 0x04 keyK 0 4 0 [0x41, 0x42]).frameH1 = false :=
  ⟨rfl, ⟨by decide, by decide⟩, ⟨by decide, by decide⟩, by decide⟩

/-- V-M12 with offset 2^64 - 1. -/
theorem witness_MaskTwiceRestoresTheSlice :
    exec (maskOf .src) (slice 0x85 keyK 0 5 0xFFFFFFFFFFFFFFFF [0x48, 0x65, 0x6C, 0x6C, 0x6F]) =
      .next (nextOf (exec (maskOf .src) (slice 0x85 keyK 0 5 0xFFFFFFFFFFFFFFFF [0x48, 0x65, 0x6C, 0x6C, 0x6F]))) ∧
    (slice 0x85 keyK 0 5 0xFFFFFFFFFFFFFFFF [0x48, 0x65, 0x6C, 0x6C, 0x6F]).fault = 0 ∧
    (nextOf (exec (maskOf .src) (slice 0x85 keyK 0 5 0xFFFFFFFFFFFFFFFF [0x48, 0x65, 0x6C, 0x6C, 0x6F]))).fault = 0 ∧
    maskInRange .src (nextOf (exec (maskOf .src) (slice 0x85 keyK 0 5 0xFFFFFFFFFFFFFFFF [0x48, 0x65, 0x6C, 0x6C, 0x6F]))) :=
  ⟨rfl, rfl, rfl, ⟨by decide, by decide⟩⟩

/-- V-M2 and V-M3, and a split whose second part is empty. -/
theorem witness_MaskInTwoPartsIsMaskInOne :
    ((2#64).toNat + (3#64).toNat < 2 ^ 64 ∧
      got State.fault (exec (maskOf .src)
        { slice 0x85 keyK 6 5 0 [0x7F, 0x9F, 0x4D, 0x51, 0x58] with mStart := 6, mN := 2 + 3, mOff := 0 }) = some 0) ∧
    ((5#64).toNat + (0#64).toNat < 2 ^ 64 ∧
      got State.fault (exec (maskOf .dst)
        { slice 0x85 keyK 6 5 0 [0x7F, 0x9F, 0x4D, 0x51, 0x58] with mStart := 6, mN := 5 + 0, mOff := 0 }) = some 0) := by
  decide

/-- V-M2 whole, and its parts: two bytes in SRC at 6, three in DST at 0. -/
theorem witness_MaskFollowsThePayloadPosition :
    (slice 0x85 keyK 6 5 0 [0x7F, 0x9F, 0x4D, 0x51, 0x58]).fault = 0 ∧ (slice 0x85 keyK 6 2 0 [0x7F, 0x9F]).fault = 0 ∧
    (slice 0x85 keyK 0 3 2 [0x4D, 0x51, 0x58]).fault = 0 ∧
    maskInRange .src (slice 0x85 keyK 6 5 0 [0x7F, 0x9F, 0x4D, 0x51, 0x58]) ∧
    maskInRange .src (slice 0x85 keyK 6 2 0 [0x7F, 0x9F]) ∧ maskInRange .dst (slice 0x85 keyK 0 3 2 [0x4D, 0x51, 0x58]) ∧
    holdsAt (slice 0x85 keyK 6 5 0 [0x7F, 0x9F, 0x4D, 0x51, 0x58]).src 6 ([0x7F, 0x9F] ++ [0x4D, 0x51, 0x58]) ∧
    holdsAt (slice 0x85 keyK 6 2 0 [0x7F, 0x9F]).src 6 [0x7F, 0x9F] ∧
    holdsAt (slice 0x85 keyK 0 3 2 [0x4D, 0x51, 0x58]).dst 0 [0x4D, 0x51, 0x58] ∧
    (slice 0x85 keyK 0 3 2 [0x4D, 0x51, 0x58]).mOff =
      (slice 0x85 keyK 6 5 0 [0x7F, 0x9F, 0x4D, 0x51, 0x58]).mOff + BitVec.ofNat 64 ([0x7F, 0x9F] : List Byte).length := by
  unfold maskInRange holdsAt
  decide

/-- The widest value of an 8-bit register, and of a 64-bit one in a halted block. -/
theorem witness_HostWriteStoresInOneRegister :
    ((Reg.frameH0, 0x08#8, 8, { acting (.set 0x08 0xFF) base with frameH0 := 0xFF }) ∈
        writeTable 0xFF (acting (.set 0x08 0xFF) base) ∧
      0xFF < 2 ^ 8 ∧ (acting (.set 0x08 0xFF) base).actions = .set 0x08 0xFF :: []) ∧
    ((Reg.mOff, 0x16#8, 64, { acting (.set 0x16 (2 ^ 64 - 1)) haltedState with mOff := BitVec.ofNat 64 (2 ^ 64 - 1) }) ∈
        writeTable (2 ^ 64 - 1) (acting (.set 0x16 (2 ^ 64 - 1)) haltedState) ∧
      2 ^ 64 - 1 < 2 ^ 64 ∧
      (acting (.set 0x16 (2 ^ 64 - 1)) haltedState).actions = .set 0x16 (2 ^ 64 - 1) :: [] ∧ haltedState.fault ≠ 0) :=
  ⟨⟨List.mem_of_getElem? (i := 0) rfl, by decide, rfl⟩, ⟨List.mem_of_getElem? (i := 13) rfl, by decide, rfl, by decide⟩⟩

theorem witness_HostReadOfARegisterChangesNothing :
    ((Reg.fault, 0x02#8, 0x01#64) ∈ readTable (acting (.get 0x02) haltedState) ∧
      (acting (.get 0x02) haltedState).actions = .get 0x02 :: []) ∧
    ((Reg.fault, 0x02#8, 0x01#64) ∈ readTable (acting (.expectReg 0x02 1) haltedState) ∧
      (acting (.expectReg 0x02 1) haltedState).actions = .expectReg 0x02 1 :: []) :=
  ⟨⟨List.mem_of_getElem? (i := 1) rfl, rfl⟩, ⟨List.mem_of_getElem? (i := 1) rfl, rfl⟩⟩

theorem witness_InadmissibleHostAccessIsRefused :
    (acting (.set 0x06 0) base).actions = .set 0x06 0 :: [] ∧ 0x17 ≤ (0x17#8).toNat ∧ 0x17 ≤ (0xFF#8).toNat ∧
    (acting (.expectReg 0x0F 0) base).actions = .expectReg 0x0F 0 :: [] ∧
    (0x01 ≤ (0x01#8).toNat ∧ (0x05#8).toNat ≤ 0x05) ∧ (acting (.get 0x00) base).actions = .get 0x00 :: [] ∧
    ((0x08#8) ∈ [0x00#8, 0x08#8, 0x09#8, 0x0B#8, 0x0C#8, 0x0D#8, 0x0E#8] ∧ 2 ^ 8 ≤ 0x100) ∧
    ((0x16#8) ∈ [0x0A#8, 0x10#8, 0x11#8, 0x12#8, 0x13#8, 0x14#8, 0x15#8, 0x16#8] ∧ 2 ^ 64 ≤ 2 ^ 64) := by decide

theorem witness_PokeWritesTheBytes :
    14 + ([0x60, 0x61] : List Byte).length ≤ (bufSize .dst base).toNat ∧
    (acting (.poke .dst 14 [0x60, 0x61]) base).actions = .poke .dst 14 [0x60, 0x61] :: [] := by decide

theorem witness_HostReadOfBufferBytesChangesNothing :
    12 + ([0x41, 0x42, 0x43, 0x44] : List Byte).length ≤ (bufSize .dst (slice 0x85 keyK 12 4 0 [0x41, 0x42, 0x43, 0x44])).toNat ∧
    holdsAt (bufMem .dst (slice 0x85 keyK 12 4 0 [0x41, 0x42, 0x43, 0x44])) 12 [0x41, 0x42, 0x43, 0x44] ∧
    ([0x41, 0x42, 0x43, 0x45] : List Byte).length = ([0x41, 0x42, 0x43, 0x44] : List Byte).length := by
  unfold holdsAt
  decide

/-- An access that leaves the buffer by one byte, and one of the last two bytes of which the second is unwritten. -/
theorem witness_HostAccessOutsideABufferFaults :
    (([0x60, 0x61] : List Byte) ≠ [] ∧ (bufSize .src base).toNat < 15 + ([0x60, 0x61] : List Byte).length ∧
      (acting (.expectBuf .src 15 [0x60, 0x61]) base).actions = .expectBuf .src 15 [0x60, 0x61] :: []) ∧
    (1 ≠ 0 ∧ (bufSize .dst base).toNat < 16 + 1) ∧
    (14 + 2 ≤ (bufSize .src (slice 0 keyK 14 0 0 [0x41])).toNat ∧ 14 ≤ 15 ∧ 15 < 14 + 2 ∧
      memRead (bufMem .src (slice 0 keyK 14 0 0 [0x41])) 15 = none ∧
      ∀ y, 14 ≤ y → y < 15 → memRead (bufMem .src (slice 0 keyK 14 0 0 [0x41])) y ≠ none) ∧
    14 + ([0x41, 0x42] : List Byte).length ≤ (bufSize .src (slice 0 keyK 14 0 0 [0x41])).toNat := by
  refine ⟨by decide, by decide, ⟨by decide, by decide, by decide, by decide, fun y y1 y2 => ?_⟩, by decide⟩
  obtain rfl : y = 14 := by omega
  decide

theorem witness_PseudoInstructionsDoTheirActions :
    (dec longHeader 0).srcLen.toNat + ([0x00, 0x00] : List Byte).length ≤ (dec longHeader 0).srcMax.toNat ∧
    (dec longHeader 6).rcur.toNat + (2 ^ 64 - 7) < 2 ^ 64 ∧
    ((nextOf (exec .encode (enc 0x81 0x80 5 0 16))).wcur.toNat ≤ 16 ∧
      ([0x81, 0x85, 0x37, 0xFA, 0x21, 0x3D] : List Byte).length = (nextOf (exec .encode (enc 0x81 0x80 5 0 16))).wcur.toNat ∧
      holdsAt (nextOf (exec .encode (enc 0x81 0x80 5 0 16))).dst 0 [0x81, 0x85, 0x37, 0xFA, 0x21, 0x3D]) ∧
    (acting (.maskAt .dst 6 3 0) base).actions = .maskAt .dst (6#64).toNat (3#64).toNat (0#64).toNat :: [] := by
  unfold holdsAt
  decide

theorem witness_InstructionsWriteOnlyTheirRegisters :
    got State.fault (exec .maskSrc (slice 0x85 keyK 0 1 0 [0x7F])) = some 0 ∧ Instr.maskSrc ≠ .decode ∧
    Instr.maskSrc ≠ .encode ∧ encodePort .maskSrc = 0x00 ∧ encodePort (.text true true true true) = 0x08 := by decide

theorem witness_CursorsOnlyAdvance :
    got State.rcur (exec .decode (dec longHeader 0)) = some 14 ∧
    got State.wcur (exec .encode (enc 0x81 0x80 65536 2 16)) = some 16 := by decide

theorem witness_EveryStepKeepsTheBuffersSound :
    buffersSound (dec longHeader 0) ∧ got State.status (step (acting (.set 0x00 0x02) (dec longHeader 0))) = some 0x00 :=
  ⟨⟨by decide, rfl, memBelow_written longHeader 16 (by decide), fun _ h => absurd rfl h⟩, by decide⟩

theorem witness_EveryStepKeepsTheResultsSound :
    resultsSound haltedState ∧ got State.fault (step (acting .reset haltedState)) = some 0x00 := by
  refine ⟨⟨.inr (.inl rfl), .inl rfl, fun h => absurd rfl h, fun h => absurd rfl h, fun h => absurd rfl h, .inl rfl, .inl rfl⟩, rfl⟩

end Sys2Proof.Tests
end

section
/-! What one step can do to the buffers, said once as a relation between the states before and after it, and the buffer
invariant derived from it (O54); then the CONSUME that meets an unwritten byte (O57). -/

namespace Sys2Proof.Machine

/-- Neither buffer and neither size differs. -/
def sameBuffers (s t : State) : Prop :=
  t.src = s.src ∧ t.dst = s.dst ∧ t.srcMax = s.srcMax ∧ t.dstMax = s.dstMax

/-- Everything a step can do to the buffers: leave them, write bytes to one of them inside its size, or clear both. -/
inductive BufferEffect (s : State) : State → Prop where
  | same {t : State} (h : sameBuffers s t) : BufferEffect s t
  | written {t : State} (buf : Buf) (a : Nat) (bs : List Byte)
      (fits : bs.length ≠ 0 → a + bs.length ≤ (bufSize buf s).toNat)
      (h : sameBuffers (setBufMem buf (memWriteBytes (bufMem buf s) a bs) s) t) : BufferEffect s t
  | cleared : BufferEffect s (resetBlock s)

/-! ### The effect keeps the buffers sound -/

theorem buffersSound_of_sameBuffers {s t : State} (h : sameBuffers s t) (hs : buffersSound s) : buffersSound t := by
  obtain ⟨hsrc, hdst, hsm, hdm⟩ := h
  unfold buffersSound
  rwa [hsrc, hdst, hsm, hdm]

/-- Bytes written to a buffer inside its size leave both buffers sound. -/
theorem buffersSound_setBufMem {buf : Buf} {s : State} {a : Nat} {bs : List Byte}
    (fits : bs.length ≠ 0 → a + bs.length ≤ (bufSize buf s).toNat) (hs : buffersSound s) :
    buffersSound (setBufMem buf (memWriteBytes (bufMem buf s) a bs) s) := by
  obtain ⟨wfSrc, wfDst, belowSrc, belowDst⟩ := hs
  cases buf with
  | src => exact ⟨memWf_memWriteBytes _ _ _ wfSrc, wfDst, memBelow_memWriteBytes _ _ _ _ belowSrc fits, belowDst⟩
  | dst => exact ⟨wfSrc, memWf_memWriteBytes _ _ _ wfDst, belowSrc, memBelow_memWriteBytes _ _ _ _ belowDst fits⟩

theorem memBelow_nil (bound : Nat) : memBelow [] bound :=
  fun _ h => absurd rfl h

theorem buffersSound_of_bufferEffect {s t : State} (h : BufferEffect s t) (hs : buffersSound s) : buffersSound t := by
  cases h with
  | same h => exact buffersSound_of_sameBuffers h hs
  | written buf a bs fits h => exact buffersSound_of_sameBuffers h (buffersSound_setBufMem fits hs)
  | cleared => exact ⟨rfl, rfl, memBelow_nil _, memBelow_nil _⟩

theorem sizes_of_bufferEffect {s t : State} (h : BufferEffect s t) : t.srcMax = s.srcMax ∧ t.dstMax = s.dstMax := by
  cases h with
  | same h =>
    obtain ⟨-, -, hsm, hdm⟩ := h
    exact ⟨hsm, hdm⟩
  | written buf a bs fits h =>
    obtain ⟨-, -, hsm, hdm⟩ := h
    cases buf <;> exact ⟨hsm, hdm⟩
  | cleared => exact ⟨rfl, rfl⟩

/-! ### The instructions -/

/-- ENCODE at most writes its header between WCUR and CAP, which is inside DST (R100, R146). -/
theorem execEncode_bufferEffect {s t : State} (h : execEncode s = .next t) : BufferEffect s t := by
  obtain ⟨-, he⟩ | ⟨-, -, he⟩ | ⟨-, -, -, he⟩ | ⟨-, inRange, fits, he⟩ := execEncode_cases s <;>
    rw [he] at h <;> cases h
  · exact .same ⟨rfl, rfl, rfl, rfl⟩
  · exact .same ⟨rfl, rfl, rfl, rfl⟩
  · exact .same ⟨rfl, rfl, rfl, rfl⟩
  · refine .written .dst s.wcur.toNat (encodedHeader s) (fun _ => ?_) ⟨rfl, rfl, rfl, rfl⟩
    obtain ⟨hwcur, hcap⟩ := inRange
    rw [encodedHeader_length, bufSize_dst]
    unfold room at fits
    omega

/-- However DECODE ends, it writes no buffer byte (R104, R105). -/
theorem sameBuffers_of_decodeOutcome {found : Except Fault HeaderRead} {s t : State}
    (h : decodeOutcome found s = .next t) : sameBuffers s t := by
  match found with
  | .error f => cases h
  | .ok .short => cases h; exact ⟨rfl, rfl, rfl, rfl⟩
  | .ok (.header b0 b1 len key) =>
    cases h
    cases key <;> exact ⟨rfl, rfl, rfl, rfl⟩

theorem execDecode_bufferEffect {s t : State} (h : execDecode s = .next t) : BufferEffect s t := by
  obtain ⟨-, he⟩ | ⟨-, -, he⟩ | ⟨-, -, he⟩ := execDecode_cases s <;> rw [he] at h
  · cases h
    exact .same ⟨rfl, rfl, rfl, rfl⟩
  · cases h
    exact .same ⟨rfl, rfl, rfl, rfl⟩
  · exact .same (sameBuffers_of_decodeOutcome h)

/-- MASK at most writes its slice, which ends below the limit and so inside its buffer (R120, R146). -/
theorem maskSlice_bufferEffect {buf : Buf} {s t : State} (h : maskSlice buf s = .next t) : BufferEffect s t := by
  obtain ⟨-, he⟩ | ⟨-, -, he⟩ | ⟨-, -, -, he⟩ | ⟨-, -, -, f, -, he⟩ | ⟨-, inRange, -, bs, hlen, -, he⟩ :=
    maskSlice_cases buf s <;> rw [he] at h <;> cases h
  · exact .same ⟨rfl, rfl, rfl, rfl⟩
  · exact .same ⟨rfl, rfl, rfl, rfl⟩
  · exact .same ⟨rfl, rfl, rfl, rfl⟩
  · refine .written buf s.mStart.toNat (xorSlice s.key s.mOff.toNat bs) (fun _ => ?_) ⟨rfl, rfl, rfl, rfl⟩
    rw [xorSlice_length, hlen]
    exact inRange.1.trans inRange.2

theorem exec_bufferEffect {i : Instr} {s t : State} (h : exec i s = .next t) : BufferEffect s t := by
  cases i with
  | encode => exact execEncode_bufferEffect h
  | decode => exact execDecode_bufferEffect h
  | maskSrc => exact maskSlice_bufferEffect (buf := .src) h
  | maskDst => exact maskSlice_bufferEffect (buf := .dst) h
  | continuation | text | binary | close | ping | pong =>
    cases h
    exact .same ⟨rfl, rfl, rfl, rfl⟩

/-! ### The host actions -/

/-- Storing a register leaves the buffers. -/
theorem sameBuffers_writeReg (r : Reg) (v : Word) (s : State) : sameBuffers s (writeReg r v s) := by
  cases r <;> exact ⟨rfl, rfl, rfl, rfl⟩

theorem commandWrite_bufferEffect {w : Byte} {s t : State} (h : commandWrite w s = .next t) : BufferEffect s t := by
  obtain ⟨i, -, he⟩ | ⟨e, -, -, he⟩ | ⟨e, -, -, he⟩ := commandWrite_cases w s <;> rw [he] at h
  · exact exec_bufferEffect h
  · cases h
    exact .same ⟨rfl, rfl, rfl, rfl⟩
  · cases h
    exact .same ⟨rfl, rfl, rfl, rfl⟩

theorem hostSet_bufferEffect {reg : Byte} {v : Nat} {s t : State} (h : hostSet reg v s = .next t) :
    BufferEffect s t := by
  obtain ⟨e, he⟩ | ⟨-, -, he⟩ | ⟨r, -, -, -, -, he⟩ := hostSet_cases reg v s <;> rw [he] at h
  · cases h
  · exact commandWrite_bufferEffect h
  · cases h
    exact .same (sameBuffers_writeReg r _ s)

/-- What a POKE that does not fault does: it writes the bytes, all of them inside the buffer (R94). -/
theorem hostPoke_next {buf : Buf} {a : Nat} {bs : List Byte} {s t : State} (h : hostPoke buf a bs s = .next t) :
    (bs.length ≠ 0 → a + bs.length ≤ (bufSize buf s).toNat) ∧
      t = setBufMem buf (memWriteBytes (bufMem buf s) a bs) s := by
  unfold hostPoke at h
  split at h
  · cases h
  · rename_i inside
    cases h
    simp only [accessOutside, Bool.and_eq_true, decide_eq_true_eq, not_and, Nat.not_lt] at inside
    exact ⟨inside, rfl⟩

/-- The actions that only give something back to the host: reads and EXPECTs (R94, R183). -/
def HostAction.isRead : HostAction → Bool
  | .get _ | .peek _ _ _ | .expectReg _ _ | .expectBuf _ _ _ => true
  | _ => false

/-- A read or EXPECT that completes gives a reply and changes nothing else (R60, R94). -/
theorem perform_next_of_isRead {a : HostAction} {s t : State} (ha : a.isRead = true) (h : perform a s = .next t) :
    ∃ r, t = reply r s := by
  cases a with
  | get | peek | expectReg | expectBuf =>
    simp only [perform, hostGet, hostPeek, hostExpectReg, hostExpectBuf] at h
    split at h <;> cases h
    exact ⟨_, rfl⟩
  | set | poke | reset | feed | skip | drain | maskAt => cases ha

theorem perform_bufferEffect {a : HostAction} {s t : State} (h : perform a s = .next t) : BufferEffect s t := by
  cases a with
  | set => exact hostSet_bufferEffect h
  | poke buf addr bytes =>
    obtain ⟨fits, rfl⟩ := hostPoke_next h
    exact .written buf addr bytes fits ⟨rfl, rfl, rfl, rfl⟩
  | reset =>
    cases h
    exact .cleared
  | get | peek | expectReg | expectBuf =>
    obtain ⟨r, rfl⟩ := perform_next_of_isRead rfl h
    exact .same ⟨rfl, rfl, rfl, rfl⟩
  | feed | skip | drain | maskAt =>
    cases h
    exact .same ⟨rfl, rfl, rfl, rfl⟩

/-! ### The step -/

/-- Settles O54: a step is idle or performs one host action, and the effect of any action keeps the buffers sound. Taking
the action from the waiting ones changes `actions` alone, so soundness before it is soundness of `s` itself. -/
theorem everyStepKeepsTheBuffersSound : Obligations.EveryStepKeepsTheBuffersSound := by
  intro s t hs h
  obtain ⟨-, he⟩ | ⟨a, rest, -, he⟩ := step_cases s <;> rw [he] at h
  · cases h
    exact ⟨hs, rfl, rfl⟩
  · have effect : BufferEffect { s with actions := rest } t := perform_bufferEffect h
    have sizes := sizes_of_bufferEffect effect
    exact ⟨buffersSound_of_bufferEffect effect hs, sizes⟩

/-! ### CONSUME -/

/-- A CONSUME with enough bytes is the read of those bytes (R131). -/
theorem consume_of_enough {k r l : Nat} (m : Memory) (hr : r ≤ l) (hk : k ≤ l - r) :
    consume k m r l = (memReadBytes .src m r k).map fun bs => .ok (bs, r + k) := by
  unfold consume
  rw [if_neg (Nat.not_lt.2 hr), if_pos hk]
  cases memReadBytes .src m r k <;> rfl

/-- Settles O57: the CONSUME is the read of its bytes, which faults with the first that holds no value. -/
theorem consumeOfAnUnwrittenByteFaults : Obligations.ConsumeOfAnUnwrittenByteFaults := by
  intro k m r l x hr hk h1 h2 hx hy
  rw [consume_of_enough m hr hk, memReadBytes_first_unwritten h1 h2 hx hy]
  rfl

end Sys2Proof.Machine
end

section
/-! Every way an instruction can complete, said once as a relation between the states before and after it. What each
instruction may write (O52) and how far a cursor moves (O53) are read off it; so is what a step can do to STATUS, FAULT and
the counts, from which O12 and O55 follow. -/

namespace Sys2Proof.Machine

/-- The ways an instruction can complete. A command of a halted block does nothing and one out of range raises RANGE; the
others end as the command's own rules say, the buffer bytes they write being left open here. A frame
opcode loads its byte. -/
inductive Completes : Instr → State → State → Prop where
  | ignored {i : Instr} {s : State} (command : encodePort i = commandPort) (halt : s.fault ≠ 0) : Completes i s s
  | outOfRange {i : Instr} {s : State} (command : encodePort i = commandPort) (running : s.fault = 0)
      (fails : rangeFails i s) : Completes i s (raiseFault faultRange s)
  | encodeShort {s : State} (running : s.fault = 0) (inRange : encodeInRange s) (short : room s < hsize (encodedH1 s)) :
      Completes .encode s (encodeFail s)
  | encoded {s : State} (m : Memory) (running : s.fault = 0) (inRange : encodeInRange s)
      (fits : hsize (encodedH1 s) ≤ room s) : Completes .encode s (encodeCommit m (hsize (encodedH1 s)) s)
  | decodeShort {s : State} (running : s.fault = 0) (inRange : decodeInRange s) (short : headerShort s) :
      Completes .decode s (decodeShort s)
  | decoded {s : State} (b0 b1 : Byte) (len : Word) (key : Option Key) (running : s.fault = 0) (inRange : decodeInRange s)
      (fits : hsize b1 ≤ available s) : Completes .decode s (decodeCommit b0 b1 len key s)
  | masked {s : State} (buf : Buf) (m : Memory) (running : s.fault = 0) (inRange : maskInRange buf s) :
      Completes (maskOf buf) s (maskCommit (setBufMem buf m s))
  | loaded {i : Instr} {s : State} (opcode : encodePort i = headerPort) : Completes i s (loadHeader0 (encode i) s)

theorem setBufMem_bufMem (buf : Buf) (s : State) : setBufMem buf (bufMem buf s) s = s := by
  cases buf <;> rfl

theorem exec_maskOf (buf : Buf) (s : State) : exec (maskOf buf) s = maskSlice buf s := by
  cases buf <;> rfl

theorem encodePort_maskOf (buf : Buf) : encodePort (maskOf buf) = commandPort := by
  cases buf <;> rfl

/-- RANGE is raised exactly outside the range of the command (R146). -/
theorem rangeFails_encode (s : State) : rangeFails .encode s ↔ ¬ encodeInRange s := by
  simp only [rangeFails, encodeInRange]
  omega

theorem rangeFails_decode (s : State) : rangeFails .decode s ↔ ¬ decodeInRange s := by
  simp only [rangeFails, decodeInRange]
  omega

theorem rangeFails_maskOf (buf : Buf) (s : State) : rangeFails (maskOf buf) s ↔ ¬ maskInRange buf s := by
  cases buf <;> simp only [maskOf, rangeFails, maskInRange, bufLimit, bufSize] <;> omega

theorem completes_of_execEncode {s t : State} (h : execEncode s = .next t) : Completes .encode s t := by
  obtain ⟨halt, he⟩ | ⟨running, outside, he⟩ | ⟨running, inRange, short, he⟩ |
    ⟨running, inRange, fits, he⟩ := execEncode_cases s <;> rw [he] at h <;> cases h
  · exact .ignored rfl halt
  · exact .outOfRange rfl running ((rangeFails_encode s).2 outside)
  · exact .encodeShort running inRange short
  · exact .encoded _ running inRange fits

theorem completes_of_execDecode {s t : State} (h : execDecode s = .next t) : Completes .decode s t := by
  obtain ⟨halt, he⟩ | ⟨running, outside, he⟩ | ⟨running, inRange, he⟩ := execDecode_cases s <;> rw [he] at h
  · cases h
    exact .ignored rfl halt
  · cases h
    exact .outOfRange rfl running ((rangeFails_decode s).2 outside)
  · match found : readHeader s.src s.rcur.toNat (available s) with
    | .error f => rw [found] at h; cases h
    | .ok .short =>
      rw [found] at h
      cases h
      exact .decodeShort running inRange (readHeader_short.1 found)
    | .ok (.header b0 b1 len key) =>
      rw [found] at h
      cases h
      obtain ⟨fits, -⟩ := readHeader_header.1 found
      exact .decoded b0 b1 len key running inRange fits

theorem completes_of_maskSlice {buf : Buf} {s t : State} (h : maskSlice buf s = .next t) : Completes (maskOf buf) s t := by
  obtain ⟨halt, he⟩ | ⟨running, outside, he⟩ | ⟨running, inRange, -, he⟩ | ⟨-, -, -, f, -, he⟩ |
    ⟨running, inRange, -, bs, -, -, he⟩ := maskSlice_cases buf s <;> rw [he] at h <;> cases h
  · exact .ignored (encodePort_maskOf buf) halt
  · exact .outOfRange (encodePort_maskOf buf) running ((rangeFails_maskOf buf s).2 outside)
  · rw [← congrArg maskCommit (setBufMem_bufMem buf s)]
    exact .masked buf _ running inRange
  · exact .masked buf _ running inRange

/-- Everything a completed instruction can have done. -/
theorem completes_of_exec {i : Instr} {s t : State} (h : exec i s = .next t) : Completes i s t := by
  cases i with
  | encode => exact completes_of_execEncode h
  | decode => exact completes_of_execDecode h
  | maskSrc => exact completes_of_maskSlice (buf := .src) h
  | maskDst => exact completes_of_maskSlice (buf := .dst) h
  | continuation | text | binary | close | ping | pong =>
    cases h
    exact .loaded rfl

/-! ### STATUS, FAULT and the counts -/

/-- Neither FAULT, nor STATUS, nor a count differs. -/
def sameResults (s t : State) : Prop :=
  t.fault = s.fault ∧ t.status = s.status ∧
    t.resWritten = s.resWritten ∧ t.resConsumed = s.resConsumed ∧ t.resMasked = s.resMasked

/-- Everything a step other than RESET can do to FAULT, STATUS and the counts: leave them; or, in a running block, raise one
fault (R146, R147), end short with all counts 0 (R142, R143), or end OK with the count of the command that ran (R31). -/
inductive ResultEffect (s : State) : State → Prop where
  | same {t : State} (h : sameResults s t) : ResultEffect s t
  | faulted {t : State} (bit : Byte) (running : s.fault = 0) (known : bit = faultRange ∨ bit = faultIllCmd)
      (h : sameResults (raiseFault bit s) t) : ResultEffect s t
  | short {t : State} (st : Byte) (running : s.fault = 0)
      (known : st = statusInsufficientInput ∨ st = statusInsufficientOutputSpace)
      (h : sameResults (setResult st 0 0 0 s) t) : ResultEffect s t
  | wrote {t : State} (b1 : Byte) (running : s.fault = 0)
      (h : sameResults (setResult statusOk (BitVec.ofNat 64 (hsize b1)) 0 0 s) t) : ResultEffect s t
  | consumed {t : State} (b1 : Byte) (running : s.fault = 0)
      (h : sameResults (setResult statusOk 0 (BitVec.ofNat 64 (hsize b1)) 0 s) t) : ResultEffect s t
  | masked {t : State} (n : Word) (running : s.fault = 0) (h : sameResults (setResult statusOk 0 0 n s) t) :
      ResultEffect s t

theorem sameResults_refl (s : State) : sameResults s s :=
  ⟨rfl, rfl, rfl, rfl, rfl⟩

theorem sameResults_decodeCommit (b0 b1 : Byte) (len : Word) (key : Option Key) (s : State) :
    sameResults (setResult statusOk 0 (BitVec.ofNat 64 (hsize b1)) 0 s) (decodeCommit b0 b1 len key s) := by
  cases key <;> exact ⟨rfl, rfl, rfl, rfl, rfl⟩

theorem sameResults_maskCommit_setBufMem (buf : Buf) (m : Memory) (s : State) :
    sameResults (setResult statusOk 0 0 s.mN s) (maskCommit (setBufMem buf m s)) := by
  cases buf <;> exact ⟨rfl, rfl, rfl, rfl, rfl⟩

theorem sameResults_writeReg (r : Reg) (v : Word) (s : State) : sameResults s (writeReg r v s) := by
  cases r <;> exact ⟨rfl, rfl, rfl, rfl, rfl⟩

theorem sameResults_setBufMem (buf : Buf) (m : Memory) (s : State) : sameResults s (setBufMem buf m s) := by
  cases buf <;> exact ⟨rfl, rfl, rfl, rfl, rfl⟩

theorem resultEffect_of_completes {i : Instr} {s t : State} (h : Completes i s t) : ResultEffect s t := by
  cases h with
  | ignored => exact .same (sameResults_refl s)
  | outOfRange _ running => exact .faulted _ running (.inl rfl) (sameResults_refl _)
  | encodeShort running => exact .short _ running (.inr rfl) ⟨rfl, rfl, rfl, rfl, rfl⟩
  | encoded m running => exact .wrote _ running ⟨rfl, rfl, rfl, rfl, rfl⟩
  | decodeShort running => exact .short _ running (.inl rfl) ⟨rfl, rfl, rfl, rfl, rfl⟩
  | decoded b0 b1 len key running => exact .consumed b1 running (sameResults_decodeCommit b0 b1 len key s)
  | masked buf m running => exact .masked _ running (sameResults_maskCommit_setBufMem buf m s)
  | loaded => exact .same ⟨rfl, rfl, rfl, rfl, rfl⟩

theorem commandWrite_resultEffect {w : Byte} {s t : State} (h : commandWrite w s = .next t) : ResultEffect s t := by
  obtain ⟨i, -, he⟩ | ⟨e, -, -, he⟩ | ⟨e, -, running, he⟩ := commandWrite_cases w s <;> rw [he] at h
  · exact resultEffect_of_completes (completes_of_exec h)
  · cases h
    exact .same (sameResults_refl s)
  · cases h
    exact .faulted _ running (.inr rfl) (sameResults_refl _)

theorem hostSet_resultEffect {reg : Byte} {v : Nat} {s t : State} (h : hostSet reg v s = .next t) :
    ResultEffect s t := by
  obtain ⟨e, he⟩ | ⟨-, -, he⟩ | ⟨r, -, -, -, -, he⟩ := hostSet_cases reg v s <;> rw [he] at h
  · cases h
  · exact commandWrite_resultEffect h
  · cases h
    exact .same (sameResults_writeReg r _ s)

/-- Of the host's actions but RESET, only a write of CMD does more than leave the results (R30 to R32, R35). -/
theorem perform_resultEffect {a : HostAction} {s t : State} (ha : a ≠ .reset) (h : perform a s = .next t) :
    ResultEffect s t := by
  cases a with
  | set => exact hostSet_resultEffect h
  | poke buf addr bytes =>
    obtain ⟨-, rfl⟩ := hostPoke_next h
    exact .same (sameResults_setBufMem buf _ s)
  | reset => exact absurd rfl ha
  | get | peek | expectReg | expectBuf =>
    obtain ⟨r, rfl⟩ := perform_next_of_isRead rfl h
    exact .same ⟨rfl, rfl, rfl, rfl, rfl⟩
  | feed | skip | drain | maskAt =>
    cases h
    exact .same ⟨rfl, rfl, rfl, rfl, rfl⟩

/-- A step is a RESET or has one of the effects on the results, once its action is taken from the waiting ones. -/
theorem step_resultEffect {s t : State} (h : step s = .next t) :
    (∃ rest, s.actions = .reset :: rest ∧ t = resetBlock { s with actions := rest }) ∨
      (s.actions.head? ≠ some .reset ∧ ∃ waiting, ResultEffect { s with actions := waiting } t) := by
  obtain ⟨idle, he⟩ | ⟨a, rest, taken, he⟩ := step_cases s <;> rw [he] at h
  · cases h
    exact .inr ⟨by simp [idle], s.actions, .same (sameResults_refl s)⟩
  · by_cases ha : a = .reset
    · subst ha
      cases h
      exact .inl ⟨rest, taken, rfl⟩
    · exact .inr ⟨by simpa [taken] using ha, rest, perform_resultEffect ha h⟩

/-! ### The results stay sound -/

/-- A header size is one of the counts of R58. -/
theorem headerCount_hsize (b1 : Byte) : headerCount (BitVec.ofNat 64 (hsize b1)) := by
  unfold headerCount
  revert b1
  decide

theorem headerCount_zero : headerCount 0 :=
  .inl rfl

theorem resultsSound_of_sameResults {s t : State} (h : sameResults s t) (hs : resultsSound s) : resultsSound t := by
  obtain ⟨hf, hst, hw, hc, hm⟩ := h
  unfold resultsSound
  rwa [hf, hst, hw, hc, hm]

theorem resultsSound_raiseFault {bit : Byte} {s : State} (known : bit = faultRange ∨ bit = faultIllCmd)
    (running : s.fault = 0) (hs : resultsSound s) : resultsSound (raiseFault bit s) := by
  obtain ⟨-, rest⟩ := hs
  refine ⟨?_, rest⟩
  rw [raiseFault_fault_of_clear bit s running]
  exact .inr known

theorem resultsSound_short {st : Byte} {s : State}
    (known : st = statusInsufficientInput ∨ st = statusInsufficientOutputSpace) (hs : resultsSound s) :
    resultsSound (setResult st 0 0 0 s) := by
  obtain ⟨hf, -⟩ := hs
  exact ⟨hf, .inr known, fun _ => ⟨rfl, rfl, rfl⟩, fun _ => ⟨rfl, rfl⟩, fun _ => ⟨rfl, rfl⟩, headerCount_zero,
    headerCount_zero⟩

/-- OK with at most one count not 0, the header counts of a header's size. -/
theorem resultsSound_ok {w c m : Word} {s : State} (hw : headerCount w) (hc : headerCount c)
    (one : w ≠ 0 → c = 0 ∧ m = 0) (other : c ≠ 0 → w = 0 ∧ m = 0) (hs : resultsSound s) :
    resultsSound (setResult statusOk w c m s) := by
  obtain ⟨hf, -⟩ := hs
  exact ⟨hf, .inl rfl, fun notOk => absurd rfl notOk, one, other, hw, hc⟩

theorem resultsSound_of_resultEffect {s t : State} (h : ResultEffect s t) (hs : resultsSound s) : resultsSound t := by
  cases h with
  | same h => exact resultsSound_of_sameResults h hs
  | faulted bit running known h => exact resultsSound_of_sameResults h (resultsSound_raiseFault known running hs)
  | short st _ known h => exact resultsSound_of_sameResults h (resultsSound_short known hs)
  | wrote b1 _ h =>
    exact resultsSound_of_sameResults h
      (resultsSound_ok (headerCount_hsize b1) headerCount_zero (fun _ => ⟨rfl, rfl⟩) (fun c => absurd rfl c) hs)
  | consumed b1 _ h =>
    exact resultsSound_of_sameResults h
      (resultsSound_ok headerCount_zero (headerCount_hsize b1) (fun w => absurd rfl w) (fun _ => ⟨rfl, rfl⟩) hs)
  | masked n _ h =>
    exact resultsSound_of_sameResults h
      (resultsSound_ok headerCount_zero headerCount_zero (fun w => absurd rfl w) (fun c => absurd rfl c) hs)

theorem resultsSound_reset : resultsSound State.reset :=
  ⟨.inl rfl, .inl rfl, fun st => absurd rfl st, fun w => absurd rfl w, fun c => absurd rfl c, headerCount_zero,
    headerCount_zero⟩

/-- Settles O55: RESET gives the results of the reset state, and each effect of any other step keeps them sound. -/
theorem everyStepKeepsTheResultsSound : Obligations.EveryStepKeepsTheResultsSound := by
  intro s t hs h
  obtain ⟨rest, -, rfl⟩ | ⟨-, waiting, effect⟩ := step_resultEffect h
  · exact resultsSound_of_sameResults ⟨rfl, rfl, rfl, rfl, rfl⟩ resultsSound_reset
  · exact resultsSound_of_resultEffect effect hs

/-- Settles O56. -/
theorem resetMeetsBothInvariants : Obligations.ResetMeetsBothInvariants := by
  obtain ⟨wfSrc, wfDst⟩ := reset_memWf
  exact ⟨⟨wfSrc, wfDst, memBelow_nil _, memBelow_nil _⟩, resultsSound_reset⟩

/-- A halted block's FAULT is left by every effect: the others happen in a running block only (R148). -/
theorem fault_eq_of_resultEffect {s t : State} (h : ResultEffect s t) (halt : s.fault ≠ 0) : t.fault = s.fault := by
  cases h with
  | same h => exact h.1
  | faulted _ running | short _ running | wrote _ running | consumed _ running | masked _ running =>
    exact absurd running halt

/-- Settles O12: RESET clears FAULT, and no effect of another step changes one that is not 0. -/
theorem onlyResetEndsAHalt : Obligations.OnlyResetEndsAHalt := by
  intro s t halt h
  obtain ⟨rest, reset, rfl⟩ | ⟨noReset, waiting, effect⟩ := step_resultEffect h
  · exact ⟨fun _ => rfl, fun noReset => absurd (by simp [reset]) noReset⟩
  · exact ⟨fun reset => absurd reset noReset, fun _ => fault_eq_of_resultEffect (s := { s with actions := waiting }) effect halt⟩

end Sys2Proof.Machine
end

section
/-! What an instruction may write (O52), how far a cursor moves (O53), and where an instruction stops at a byte that holds
no value (O15, O16). -/

namespace Sys2Proof.Machine

/-! ### Writes and cursors -/

/-- Settles O52: each way an instruction completes writes the registers its rule names and no other. -/
theorem instructionsWriteOnlyTheirRegisters : Obligations.InstructionsWriteOnlyTheirRegisters := by
  intro i s t h
  cases completes_of_exec h with
  | ignored command => simp [command, commandPort]
  | outOfRange command => simp [command, commandPort]
  | encodeShort => simp [encodePort, commandPort, encodedH1, apply_ite maskFlag]
  | encoded => simp [encodePort, commandPort, encodedH1]
  | decodeShort => simp [encodePort, commandPort]
  | decoded b0 b1 len key => cases key <;> simp [encodePort, commandPort]
  | masked buf => cases buf <;> simp [maskOf, encodePort, commandPort]
  | loaded opcode => simp [opcode, headerPort]

/-- What O53 says of the states before and after an instruction. -/
def cursorsAdvance (s t : State) : Prop :=
  s.rcur.toNat ≤ t.rcur.toNat ∧ s.wcur.toNat ≤ t.wcur.toNat ∧
  (t.rcur ≠ s.rcur → t.rcur.toNat ≤ s.srcLen.toNat ∧ t.rcur.toNat = s.rcur.toNat + t.resConsumed.toNat ∧
    headerCount t.resConsumed) ∧
  (t.wcur ≠ s.wcur → t.wcur.toNat ≤ s.cap.toNat ∧ t.wcur.toNat = s.wcur.toNat + t.resWritten.toNat ∧
    headerCount t.resWritten)

theorem cursorsAdvance_of_same {s t : State} (hr : t.rcur = s.rcur) (hw : t.wcur = s.wcur) : cursorsAdvance s t := by
  simp [cursorsAdvance, hr, hw]

theorem hsize_toNat (b1 : Byte) : (BitVec.ofNat 64 (hsize b1)).toNat = hsize b1 :=
  (BitVec.toNat_ofNat _ _).trans (Nat.mod_eq_of_lt ((hsize_le b1).trans_lt (by decide)))

/-- A cursor moved over as many bytes as stand below its limit does not wrap. -/
theorem cursor_moved_toNat {cursor limit : Word} {n : Nat} (below : cursor.toNat ≤ limit.toNat)
    (fits : n ≤ limit.toNat - cursor.toNat) :
    (BitVec.ofNat 64 (cursor.toNat + n)).toNat = cursor.toNat + n :=
  (BitVec.toNat_ofNat _ _).trans (Nat.mod_eq_of_lt (by have := limit.isLt; omega))

/-- A successful ENCODE moves WCUR over its header, inside CAP (R100). -/
theorem cursorsAdvance_encodeCommit {s : State} (m : Memory) (inRange : encodeInRange s)
    (fits : hsize (encodedH1 s) ≤ room s) : cursorsAdvance s (encodeCommit m (hsize (encodedH1 s)) s) := by
  obtain ⟨below, -⟩ := inRange
  have moved := cursor_moved_toNat below fits
  unfold room at fits
  refine ⟨Nat.le_refl _, ?_, fun same => absurd rfl same, fun _ => ⟨?_, ?_, headerCount_hsize _⟩⟩ <;>
    simp only [encodeCommit_wcur, encodeCommit_resWritten, moved, hsize_toNat] <;> omega

/-- A successful DECODE moves RCUR over the header, inside SRC_LEN (R104). -/
theorem cursorsAdvance_decodeCommit {s : State} {b1 : Byte} (b0 : Byte) (len : Word) (key : Option Key)
    (inRange : decodeInRange s) (fits : hsize b1 ≤ available s) : cursorsAdvance s (decodeCommit b0 b1 len key s) := by
  obtain ⟨below, -⟩ := inRange
  have moved := cursor_moved_toNat below fits
  unfold available at fits
  have rcur : (decodeCommit b0 b1 len key s).rcur.toNat = s.rcur.toNat + hsize b1 := by cases key <;> exact moved
  have consumed : (decodeCommit b0 b1 len key s).resConsumed = BitVec.ofNat 64 (hsize b1) := by cases key <;> rfl
  have wcur : (decodeCommit b0 b1 len key s).wcur = s.wcur := by cases key <;> rfl
  refine ⟨?_, Nat.le_of_eq (by rw [wcur]), fun _ => ⟨?_, ?_, ?_⟩, fun moved => absurd wcur moved⟩
  · omega
  · omega
  · rw [rcur, consumed, hsize_toNat]
  · rw [consumed]
    exact headerCount_hsize b1

/-- Settles O53: only a successful ENCODE or DECODE moves a cursor. -/
theorem cursorsOnlyAdvance : Obligations.CursorsOnlyAdvance := by
  intro i s t h
  show cursorsAdvance s t
  cases completes_of_exec h with
  | ignored | outOfRange | encodeShort | decodeShort | loaded => exact cursorsAdvance_of_same rfl rfl
  | encoded m _ inRange fits => exact cursorsAdvance_encodeCommit m inRange fits
  | decoded b0 b1 len key _ inRange fits => exact cursorsAdvance_decodeCommit b0 len key inRange fits
  | masked buf => cases buf <;> exact cursorsAdvance_of_same rfl rfl

/-! ### Bytes that hold no value -/

/-- The outcomes an instruction may have (R40): it completes, or stops at a byte below a limit that holds no value. -/
def completesOrUnwritten (s : State) (o : Host.Outcome State Fault Refusal) : Prop :=
  (∃ t, o = .next t) ∨
    ∃ buf a, o = .fault (.unwrittenByte buf a) ∧ a < (bufLimit buf s).toNat ∧ memRead (bufMem buf s) a = none

theorem execDecode_completesOrUnwritten (s : State) : completesOrUnwritten s (execDecode s) := by
  obtain ⟨-, he⟩ | ⟨-, -, he⟩ | ⟨-, ⟨below, -⟩, he⟩ := execDecode_cases s <;> rw [he]
  · exact .inl ⟨_, rfl⟩
  · exact .inl ⟨_, rfl⟩
  · match found : readHeader s.src s.rcur.toNat (available s) with
    | .error f =>
      obtain ⟨x, -, hx, -, unwritten, rfl⟩ := readHeader_error found
      unfold available at hx
      exact .inr ⟨.src, x, rfl, by rw [bufLimit_src]; omega, unwritten⟩
    | .ok .short => exact .inl ⟨_, rfl⟩
    | .ok (.header ..) => exact .inl ⟨_, rfl⟩

theorem maskSlice_completesOrUnwritten (buf : Buf) (s : State) : completesOrUnwritten s (maskSlice buf s) := by
  obtain ⟨-, he⟩ | ⟨-, -, he⟩ | ⟨-, -, -, he⟩ | ⟨-, ⟨below, -⟩, -, f, hf, he⟩ | ⟨-, -, -, bs, -, -, he⟩ :=
    maskSlice_cases buf s <;> rw [he]
  · exact .inl ⟨_, rfl⟩
  · exact .inl ⟨_, rfl⟩
  · exact .inl ⟨_, rfl⟩
  · obtain ⟨x, -, hx, unwritten, rfl⟩ := memReadBytes_error hf
    exact .inr ⟨buf, x, rfl, hx.trans_le below, unwritten⟩
  · exact .inl ⟨_, rfl⟩

theorem exec_completesOrUnwritten (i : Instr) (s : State) : completesOrUnwritten s (exec i s) := by
  cases i with
  | encode =>
    obtain ⟨-, he⟩ | ⟨-, -, he⟩ | ⟨-, -, -, he⟩ | ⟨-, -, -, he⟩ := execEncode_cases s <;> exact .inl ⟨_, he⟩
  | decode => exact execDecode_completesOrUnwritten s
  | maskSrc => exact maskSlice_completesOrUnwritten .src s
  | maskDst => exact maskSlice_completesOrUnwritten .dst s
  | continuation | text | binary | close | ping | pong => exact .inl ⟨_, rfl⟩

/-- Settles O15: where every byte below the limits holds a value, there is none to stop at. -/
theorem instructionsStopOnlyOnUnwrittenBytes : Obligations.InstructionsStopOnlyOnUnwrittenBytes := by
  refine ⟨exec_completesOrUnwritten, fun i s srcWritten dstWritten => ?_⟩
  obtain completes | ⟨buf, a, -, below, unwritten⟩ := exec_completesOrUnwritten i s
  · exact completes
  · cases buf with
    | src => exact absurd unwritten (srcWritten a (Nat.zero_le a) (by rwa [Nat.zero_add]))
    | dst => exact absurd unwritten (dstWritten a (Nat.zero_le a) (by rwa [Nat.zero_add]))

theorem execDecode_of_running {s : State} (running : s.fault = 0) (inRange : decodeInRange s) :
    execDecode s = decodeOutcome (readHeader s.src s.rcur.toNat (available s)) s := by
  obtain ⟨halt, -⟩ | ⟨-, outside, -⟩ | ⟨-, -, he⟩ := execDecode_cases s
  · exact absurd running halt
  · exact absurd inRange outside
  · exact he

/-- DECODE reads the bytes of a header in wire order, so each of the first two is needed as soon as 2 are there (R104). -/
theorem readHeader_first_unwritten {m : Memory} {p avail : Nat} (enough : 2 ≤ avail) (unwritten : memRead m p = none) :
    readHeader m p avail = .error (.unwrittenByte .src p) := by
  simp only [readHeader, if_neg (Nat.not_lt.2 enough), memReadByte_error.2 ⟨unwritten, rfl⟩]

theorem readHeader_second_unwritten {m : Memory} {p avail : Nat} {b0 : Byte} (enough : 2 ≤ avail)
    (h0 : memRead m p = some b0) (unwritten : memRead m (p + 1) = none) :
    readHeader m p avail = .error (.unwrittenByte .src (p + 1)) := by
  simp only [readHeader, if_neg (Nat.not_lt.2 enough), memReadByte_ok.2 h0, memReadByte_error.2 ⟨unwritten, rfl⟩]

/-- A whole header whose first two bytes hold values is read on from the third. -/
theorem readHeader_of_two {m : Memory} {p avail : Nat} {b0 b1 : Byte} (h0 : memRead m p = some b0)
    (h1 : memRead m (p + 1) = some b1) (whole : hsize b1 ≤ avail) : readHeader m p avail = readRest m p b0 b1 := by
  have enough := (hsize_pos b1).trans whole
  simp only [readHeader, if_neg (Nat.not_lt.2 enough), memReadByte_ok.2 h0, memReadByte_ok.2 h1,
    if_neg (Nat.not_lt.2 whole)]

/-- Reading the key faults as reading its four bytes does. -/
theorem readKey_of_memReadBytes_error {m : Memory} {a : Nat} {f : Fault} (h : memReadBytes .src m a 4 = .error f) :
    readKey m a = .error f := by
  revert h
  simp only [memReadBytes, Nat.add_assoc, readKey]
  cases memReadByte .src m a <;> cases memReadByte .src m (a + 1) <;> cases memReadByte .src m (a + 2) <;>
    cases memReadByte .src m (a + 3) <;> simp

/-- The rest of a header, up to its size, faults with its first byte that holds no value, in the extended length or in the
key. -/
theorem readRest_first_unwritten {m : Memory} {p x : Nat} {b0 b1 : Byte} (h1 : p + 2 ≤ x) (h2 : x < p + hsize b1)
    (hx : memRead m x = none) (hy : ∀ y, p + 2 ≤ y → y < x → memRead m y ≠ none) :
    readRest m p b0 b1 = .error (.unwrittenByte .src x) := by
  unfold readRest
  by_cases inLen : x < p + 2 + ext (lenIndField b1)
  · rw [memReadBytes_first_unwritten h1 inLen hx hy]
  · have inKey := Nat.le_of_not_lt inLen
    obtain ⟨extended, hext⟩ := memReadBytes_of_written .src fun y h h' => hy y h (h'.trans_le inKey)
    unfold hsize at h2
    have masked : maskFlag b1 = true := by
      by_contra unmasked
      rw [if_neg unmasked] at h2
      omega
    rw [if_pos masked] at h2
    have key := readKey_of_memReadBytes_error
      (memReadBytes_first_unwritten (n := 4) inKey (by omega) hx fun y h => hy y (by omega))
    simp only [hext, masked, if_true, key]

/-- A MASK with MASKF set faults with the first byte of its slice that holds no value (R120). -/
theorem maskSlice_first_unwritten {buf : Buf} {s : State} {x : Nat} (running : s.fault = 0) (inRange : maskInRange buf s)
    (masked : maskFlag s.frameH1 = true) (h1 : s.mStart.toNat ≤ x) (h2 : x < s.mStart.toNat + s.mN.toNat)
    (hx : memRead (bufMem buf s) x = none) (hy : ∀ y, s.mStart.toNat ≤ y → y < x → memRead (bufMem buf s) y ≠ none) :
    maskSlice buf s = .fault (.unwrittenByte buf x) := by
  have first := memReadBytes_first_unwritten (buf := buf) h1 h2 hx hy
  obtain ⟨halt, -⟩ | ⟨-, outside, -⟩ | ⟨-, -, unmasked, -⟩ | ⟨-, -, -, f, hf, he⟩ | ⟨-, -, -, bs, hlen, holds, -⟩ :=
    maskSlice_cases buf s
  · exact absurd running halt
  · exact absurd inRange outside
  · rw [masked] at unmasked
    cases unmasked
  · rw [first] at hf
    cases hf
    exact he
  · rw [memReadBytes_ok.2 ⟨hlen, holds⟩] at first
    cases first

/-- Settles O16: DECODE faults as its read of the header does, and MASK as its read of the slice does. -/
theorem readingAnUnwrittenByteFaults : Obligations.ReadingAnUnwrittenByteFaults := by
  refine ⟨fun s running inRange enough h0 => ?_, fun s b0 running inRange enough h0 h1 => ?_,
    fun s b0 b1 x running inRange h0 h1 whole hge hlt hx hy => ?_,
    fun buf s x running inRange masked hge hlt hx hy => ?_⟩
  · show execDecode s = _
    rw [execDecode_of_running running inRange, readHeader_first_unwritten enough h0, decodeOutcome]
  · show execDecode s = _
    rw [execDecode_of_running running inRange, readHeader_second_unwritten enough h0 h1, decodeOutcome]
  · show execDecode s = _
    rw [execDecode_of_running running inRange, readHeader_of_two h0 h1 whole, readRest_first_unwritten hge hlt hx hy,
      decodeOutcome]
  · rw [exec_maskOf]
    exact maskSlice_first_unwritten running inRange masked hge hlt hx hy

end Sys2Proof.Machine
end

section
/-! The host's port: a host write that decodes runs its instruction (O4, O6), the register map of the model is the table of
R34 (O45, O46), and the accesses that are refused (O47) or fault (O50). Reset (O1). -/

namespace Sys2Proof.Machine

/-! ### Reset -/

/-- Settles O1. -/
theorem resetLeavesRegistersZeroAndBuffersEmpty : Obligations.ResetLeavesRegistersZeroAndBuffersEmpty :=
  ⟨fun r _ => by cases r <;> rfl, fun _ => ⟨rfl, rfl⟩⟩

/-! ### Writes that run an instruction -/

theorem hostSet_commandPort (w : Byte) (s : State) : hostSet commandPort w.toNat s = commandWrite w s := by
  have fits : w.toNat < 2 ^ regWidth .cmd := w.isLt
  rw [hostSet, show regOfNumber commandPort = some .cmd from rfl]
  simp only [hostWritable, if_true, if_pos fits, registerWrite, BitVec.ofNat_toNat, BitVec.setWidth_eq]

theorem hostSet_headerPort (b : Byte) (s : State) : hostSet headerPort b.toNat s = headerWrite b s := by
  have fits : b.toNat < 2 ^ regWidth .frameH0 := b.isLt
  rw [hostSet, show regOfNumber headerPort = some .frameH0 from rfl]
  simp only [hostWritable, if_true, if_pos fits, registerWrite, BitVec.ofNat_toNat, BitVec.setWidth_eq]

theorem hostSet_of_decodePair {port value : Byte} {i : Instr} (h : decodePair port value = .ok i) (s : State) :
    hostSet port value.toNat s = exec i s := by
  unfold decodePair at h
  split at h
  · subst port
    rw [hostSet_commandPort, commandWrite, h]
  · split at h
    · subst port
      rw [hostSet_headerPort, headerWrite, h]
    · cases h

/-- Settles O4. -/
theorem stepRunsTheDecodedInstruction : Obligations.StepRunsTheDecodedInstruction := by
  intro s rest port value i next h
  rw [step_of_action next]
  exact hostSet_of_decodePair h _

/-- A table word is placed as the write of its byte to the register on which the byte decodes to its instruction. -/
theorem tableAction_of_decodeTableWord {nbits w : Nat} {i : Instr} (h : decodeTableWord nbits w = some i) :
    ∃ port, tableAction nbits w = .set port (tableByte nbits w).toNat ∧ decodePair port (tableByte nbits w) = .ok i := by
  unfold decodeTableWord decodeBytes at h
  unfold tableAction
  cases command : decodeCommand (tableByte nbits w) with
  | ok j =>
    simp only [command] at h
    cases h
    exact ⟨commandPort, rfl, command⟩
  | error _ =>
    cases header : decodeHeader0 (tableByte nbits w) with
    | ok j =>
      simp only [command, header] at h
      cases h
      exact ⟨headerPort, rfl, header⟩
    | error _ =>
      simp only [command, header] at h
      cases h

/-- Settles O6: the placed action is a host write that decodes to the word's instruction. -/
theorem placedTableWordRunsNext : Obligations.PlacedTableWordRunsNext := by
  intro s nbits w i h
  obtain ⟨port, action, decodes⟩ := tableAction_of_decodeTableWord h
  exact stepRunsTheDecodedInstruction (s.withFetchWord nbits w) s.actions port _ i
    (congrArg (· :: s.actions) action) decodes

/-! ### The register map -/

/-- The read-write rows of R34 are the model's writable registers but CMD, with their numbers and widths, and the state each
row names is the one the model's store leaves. -/
theorem writeTable_eq_map (value : Nat) (s : State) :
    writeTable value s = (allRegs.filter fun r => hostWritable r && r != .cmd).map
      fun r => (r, regNumber r, regWidth r, writeReg r (BitVec.ofNat 64 value) s) := by
  have byte : (BitVec.ofNat 64 value).setWidth 8 = BitVec.ofNat 8 value := by
    apply BitVec.eq_of_toNat_eq
    simp
  rw [show (allRegs.filter fun r => hostWritable r && r != .cmd) =
    [.frameH0, .frameH1, .frameLen, .frameMk0, .frameMk1, .frameMk2, .frameMk3,
      .srcLen, .rcur, .cap, .wcur, .mStart, .mN, .mOff] from rfl]
  simp only [List.map_cons, List.map_nil, writeReg, byte]
  rfl

/-- The readable rows of R34 are the model's readable registers with their numbers and values. -/
theorem readTable_eq_map (s : State) :
    readTable s = (allRegs.filter hostReadable).map fun r => (r, regNumber r, readReg r s) :=
  rfl

theorem hostSet_regNumber {r : Reg} (writable : hostWritable r = true) (command : r ≠ .cmd) {v : Nat}
    (fits : v < 2 ^ regWidth r) (s : State) :
    hostSet (regNumber r) v s = .next (writeReg r (BitVec.ofNat 64 v) s) := by
  simp only [hostSet, regOfNumber_regNumber, writable, if_true, if_pos fits, registerWrite_plain command v fits]

theorem hostRead_regNumber {r : Reg} (readable : hostReadable r = true) (s : State) :
    hostRead (regNumber r) s = .ok (readReg r s) := by
  simp only [hostRead, regOfNumber_regNumber, readable, if_true]

/-- A store does not touch the waiting actions, so it does not matter when the action is taken from them. -/
theorem writeReg_actions (r : Reg) (v : Word) (s : State) (rest : List HostAction) :
    writeReg r v { s with actions := rest } = { writeReg r v s with actions := rest } := by
  cases r <;> rfl

theorem regWidth_le (r : Reg) : regWidth r ≤ 64 := by
  cases r <;> decide

/-- Settles O45: every row of the table is one of the model's registers, whose write stores the value there alone. -/
theorem hostWriteStoresInOneRegister : Obligations.HostWriteStoresInOneRegister := by
  intro s rest value r number width t row
  rw [writeTable_eq_map] at row
  obtain ⟨r, member, ⟨⟩⟩ := List.mem_map.1 row
  obtain ⟨writable, command⟩ : hostWritable r = true ∧ r ≠ .cmd := by
    simpa using (List.mem_filter.1 member).2
  refine ⟨rfl, rfl, writable, fun fits next => ⟨?_, ?_, fun r' other => readReg_writeReg_other other _ s⟩⟩
  · rw [step_of_action next, perform, hostSet_regNumber writable command fits, writeReg_actions]
  · have fits64 : value < 2 ^ 64 := fits.trans_le (Nat.pow_le_pow_right (by decide) (regWidth_le r))
    rw [readReg_writeReg_same writable command fits, BitVec.toNat_ofNat, Nat.mod_eq_of_lt fits64]

/-- A read of a register does not depend on the waiting actions. -/
theorem readReg_actions (r : Reg) (s : State) (rest : List HostAction) :
    readReg r { s with actions := rest } = readReg r s := by
  cases r <;> rfl

/-- Settles O46: every row of the table is one of the model's registers, whose read gives its value as a reply. -/
theorem hostReadOfARegisterChangesNothing : Obligations.HostReadOfARegisterChangesNothing := by
  intro s rest r number v row
  rw [readTable_eq_map] at row
  obtain ⟨r, member, ⟨⟩⟩ := List.mem_map.1 row
  have readable : hostReadable r = true := (List.mem_filter.1 member).2
  refine ⟨rfl, readable, rfl, fun next => ?_, fun expected next => ?_⟩
  · rw [step_of_action next, perform, hostGet, hostRead_regNumber readable, readReg_actions]
    rfl
  · rw [step_of_action next, perform, hostExpectReg, hostRead_regNumber readable, readReg_actions]
    rfl

/-! ### Refusals -/

theorem hostSet_of_unassigned {reg : Byte} (h : regOfNumber reg = none) (v : Nat) (s : State) :
    hostSet reg v s = .refused (.unassignedRegister reg) := by
  simp only [hostSet, h]

theorem hostSet_of_readOnly {reg : Byte} (h : (regOfNumber reg).map hostWritable = some false) (v : Nat) (s : State) :
    hostSet reg v s = .refused (.readOnlyRegister reg) := by
  obtain ⟨r, hr, readOnly⟩ := Option.map_eq_some_iff.1 h
  simp only [hostSet, hr, readOnly, Bool.false_eq_true, if_false]

theorem hostSet_of_tooWide {reg : Byte} {v width : Nat}
    (h : (regOfNumber reg).map (fun r => (hostWritable r, regWidth r)) = some (true, width)) (wide : 2 ^ width ≤ v)
    (s : State) : hostSet reg v s = .refused (.valueTooWide reg v) := by
  obtain ⟨r, hr, row⟩ := Option.map_eq_some_iff.1 h
  obtain ⟨writable, rfl⟩ := Prod.mk.inj row
  simp only [hostSet, hr, writable, if_true, if_neg (Nat.not_lt.2 wide)]

/-- A read or an EXPECT of a register is refused as the read of its value is. -/
theorem step_of_hostRead_error {s : State} {rest : List HostAction} {reg : Byte} {value : Nat} {e : Refusal}
    (next : s.actions = .get reg :: rest ∨ s.actions = .expectReg reg value :: rest)
    (h : ∀ t, hostRead reg t = .error e) : step s = .refused e := by
  obtain next | next := next
  · rw [step_of_action next, perform, hostGet, h]
  · rw [step_of_action next, perform, hostExpectReg, h]

/-- The numbers R34 leaves unassigned. -/
theorem regOfNumber_of_unassigned :
    ∀ reg : Byte, reg = 0x06 ∨ reg = 0x07 ∨ reg = 0x0F ∨ 0x17 ≤ reg.toNat → regOfNumber reg = none := by
  decide

/-- The numbers of the block's results, which the host only reads (R34). -/
theorem hostWritable_of_result :
    ∀ reg : Byte, 0x01 ≤ reg.toNat → reg.toNat ≤ 0x05 → (regOfNumber reg).map hostWritable = some false := by
  decide

/-- The 8-bit registers the host writes (R34). -/
theorem width_of_byteRegister :
    ∀ reg ∈ [0x00#8, 0x08#8, 0x09#8, 0x0B#8, 0x0C#8, 0x0D#8, 0x0E#8],
      (regOfNumber reg).map (fun r => (hostWritable r, regWidth r)) = some (true, 8) := by
  decide

/-- The 64-bit registers the host writes (R34). -/
theorem width_of_wordRegister :
    ∀ reg ∈ [0x0A#8, 0x10#8, 0x11#8, 0x12#8, 0x13#8, 0x14#8, 0x15#8, 0x16#8],
      (regOfNumber reg).map (fun r => (hostWritable r, regWidth r)) = some (true, 64) := by
  decide

/-- Settles O47: the number decides, by the rows of R34, which refusal is met first. -/
theorem inadmissibleHostAccessIsRefused : Obligations.InadmissibleHostAccessIsRefused := by
  intro s rest reg value
  refine ⟨fun number next => ?_, fun number next => ?_, fun ge le next => ?_, fun number next => ?_,
    fun number wide next => ?_, fun number wide next => ?_⟩
  · rw [step_of_action next, perform, hostSet_of_unassigned (regOfNumber_of_unassigned reg number)]
  · exact step_of_hostRead_error next fun t => by rw [hostRead, regOfNumber_of_unassigned reg number]
  · rw [step_of_action next, perform, hostSet_of_readOnly (hostWritable_of_result reg ge le)]
  · subst number
    exact step_of_hostRead_error next fun t => rfl
  · rw [step_of_action next, perform, hostSet_of_tooWide (width_of_byteRegister reg number) wide]
  · rw [step_of_action next, perform, hostSet_of_tooWide (width_of_wordRegister reg number) wide]

/-! ### Accesses that fault -/

theorem accessOutside_iff (buf : Buf) (addr n : Nat) (s : State) :
    accessOutside buf addr n s = true ↔ n ≠ 0 ∧ (bufSize buf s).toNat < addr + n := by
  simp [accessOutside]

theorem hostReadBytes_of_outside {buf : Buf} {addr n : Nat} {s : State} (nonzero : n ≠ 0)
    (outside : (bufSize buf s).toNat < addr + n) :
    hostReadBytes buf addr n s = .error (.noSuchByte buf (max addr (bufSize buf s).toNat)) := by
  rw [hostReadBytes, if_pos ((accessOutside_iff buf addr n s).2 ⟨nonzero, outside⟩), firstOutside]

theorem hostPoke_of_outside {buf : Buf} {addr : Nat} {bytes : List Byte} {s : State} (nonempty : bytes ≠ [])
    (outside : (bufSize buf s).toNat < addr + bytes.length) :
    hostPoke buf addr bytes s = .fault (.noSuchByte buf (max addr (bufSize buf s).toNat)) := by
  have length : bytes.length ≠ 0 := mt List.length_eq_zero_iff.1 nonempty
  rw [hostPoke, if_pos ((accessOutside_iff buf addr bytes.length s).2 ⟨length, outside⟩), firstOutside]

/-- An access inside the buffer faults with its first byte that holds no value (log entry 8). -/
theorem hostReadBytes_first_unwritten {buf : Buf} {addr n x : Nat} {s : State}
    (inside : addr + n ≤ (bufSize buf s).toNat) (h1 : addr ≤ x) (h2 : x < addr + n) (hx : memRead (bufMem buf s) x = none)
    (hy : ∀ y, addr ≤ y → y < x → memRead (bufMem buf s) y ≠ none) :
    hostReadBytes buf addr n s = .error (.unwrittenByte buf x) := by
  have notOutside : ¬ accessOutside buf addr n s = true := by
    rw [accessOutside_iff]
    omega
  rw [hostReadBytes, if_neg notOutside, memReadBytes_first_unwritten h1 h2 hx hy]

/-- What the host reads of a buffer does not depend on the waiting actions. -/
theorem hostReadBytes_actions (buf : Buf) (addr n : Nat) (s : State) (rest : List HostAction) :
    hostReadBytes buf addr n { s with actions := rest } = hostReadBytes buf addr n s := by
  cases buf <;> rfl

/-- A host read of a buffer faults as the read of its bytes does. -/
theorem step_peek_of_error {s : State} {rest : List HostAction} {buf : Buf} {addr n : Nat} {f : Fault}
    (next : s.actions = .peek buf addr n :: rest) (h : hostReadBytes buf addr n s = .error f) : step s = .fault f := by
  rw [step_of_action next, perform, hostPeek, hostReadBytes_actions, h]

/-- An EXPECT of buffer bytes faults as the read of its bytes does. -/
theorem step_expectBuf_of_error {s : State} {rest : List HostAction} {buf : Buf} {addr : Nat} {bytes : List Byte}
    {f : Fault} (next : s.actions = .expectBuf buf addr bytes :: rest)
    (h : hostReadBytes buf addr bytes.length s = .error f) : step s = .fault f := by
  rw [step_of_action next, perform, hostExpectBuf, hostReadBytes_actions, h]

/-- Settles O50. -/
theorem hostAccessOutsideABufferFaults : Obligations.HostAccessOutsideABufferFaults := by
  intro s rest buf addr
  refine ⟨fun bytes nonempty outside next => ?_, fun n nonzero outside next => ?_,
    fun n x inside h1 h2 hx hy next => ?_, fun bytes x inside h1 h2 hx hy next => ?_⟩
  · obtain poke | expect := next
    · rw [step_of_action poke]
      cases buf <;> exact hostPoke_of_outside nonempty outside
    · exact step_expectBuf_of_error expect (hostReadBytes_of_outside (mt List.length_eq_zero_iff.1 nonempty) outside)
  · exact step_peek_of_error next (hostReadBytes_of_outside nonzero outside)
  · exact step_peek_of_error next (hostReadBytes_first_unwritten inside h1 h2 hx hy)
  · exact step_expectBuf_of_error next (hostReadBytes_first_unwritten inside h1 h2 hx hy)

end Sys2Proof.Machine
end

section
/-! A command that ran short and is repeated (O31), and the host's read and EXPECT of bytes that hold values (O49). -/

namespace Sys2Proof.Machine

/-! ### A failed command, repeated -/

/-- A command out of range leaves a block that is halted (R146). -/
theorem raiseFault_faultRange_halts {s : State} (running : s.fault = 0) : (raiseFault faultRange s).fault ≠ 0 := by
  rw [raiseFault_fault_of_clear _ _ running]
  decide

/-- A DECODE that answered InsufficientInput is one that found its header short (R142). -/
theorem decode_failed {s t : State} (running : s.fault = 0) (h : exec .decode s = .next t) (clear : t.fault = 0)
    (failed : t.status = statusInsufficientInput) : decodeInRange s ∧ headerShort s ∧ t = decodeShort s := by
  obtain ⟨halt, -⟩ | ⟨-, -, he⟩ | ⟨-, inRange, he⟩ := execDecode_cases s
  · exact absurd running halt
  · cases he.symm.trans h
    exact absurd clear (raiseFault_faultRange_halts running)
  · have ends := he.symm.trans h
    match found : readHeader s.src s.rcur.toNat (available s) with
    | .error f => rw [found] at ends; cases ends
    | .ok .short =>
      rw [found] at ends
      cases ends
      exact ⟨inRange, readHeader_short.1 found, rfl⟩
    | .ok (.header b0 b1 len key) =>
      rw [found] at ends
      cases ends
      cases key <;> cases failed

/-- A DECODE that finds its header short changes the results alone (R105). -/
theorem execDecode_of_short {s : State} (running : s.fault = 0) (inRange : decodeInRange s) (short : headerShort s) :
    execDecode s = .next (decodeShort s) := by
  rw [execDecode_of_running running inRange, readHeader_short.2 short, decodeOutcome]

/-- An ENCODE that answered InsufficientOutputSpace is one whose header did not fit (R143). -/
theorem encode_failed {s t : State} (running : s.fault = 0) (h : exec .encode s = .next t) (clear : t.fault = 0)
    (failed : t.status = statusInsufficientOutputSpace) :
    encodeInRange s ∧ room s < hsize (encodedH1 s) ∧ t = encodeFail s := by
  obtain ⟨halt, -⟩ | ⟨-, -, he⟩ | ⟨-, inRange, short, he⟩ | ⟨-, -, -, he⟩ := execEncode_cases s
  · exact absurd running halt
  · cases he.symm.trans h
    exact absurd clear (raiseFault_faultRange_halts running)
  · cases he.symm.trans h
    exact ⟨inRange, short, rfl⟩
  · cases he.symm.trans h
    cases failed

theorem execEncode_of_short {s : State} (running : s.fault = 0) (inRange : encodeInRange s)
    (short : room s < hsize (encodedH1 s)) : execEncode s = .next (encodeFail s) := by
  obtain ⟨halt, -⟩ | ⟨-, outside, -⟩ | ⟨-, -, -, he⟩ | ⟨-, -, fits, -⟩ := execEncode_cases s
  · exact absurd running halt
  · exact absurd inRange outside
  · exact he
  · omega

/-- The indicator a failed ENCODE leaves is the old one or the new one (R103). -/
theorem encodeFail_frameH1_eq (s : State) :
    (encodeFail s).frameH1 = s.frameH1 ∨ (encodeFail s).frameH1 = encodedH1 s := by
  rw [encodeFail_frameH1]
  split
  · exact .inr rfl
  · exact .inl rfl

/-- Whichever indicator a failed ENCODE leaves, the next one writes the same byte 1: ENCODE overwrites it (R102). -/
theorem encodedH1_encodeFail (s : State) : encodedH1 (encodeFail s) = encodedH1 s := by
  unfold encodedH1
  rw [encodeFail_frameLen]
  obtain old | new := encodeFail_frameH1_eq s
  · rw [old]
  · rw [new, encodedH1, withLenInd_withLenInd]

/-- Settles O31: a command that ran short leaves its range, its input and its room as they were, so it runs short again;
only the drawn indicator can differ, and both draws of the second attempt are among the two of R103. -/
theorem failedCommandRepeatsItsResult : Obligations.FailedCommandRepeatsItsResult := by
  refine ⟨fun s t running h clear failed => ?_, fun s t running h clear failed => ?_⟩
  · obtain ⟨inRange, short, rfl⟩ := decode_failed running h clear failed
    exact execDecode_of_short (s := decodeShort s) running inRange short
  · obtain ⟨inRange, short, rfl⟩ := encode_failed running h clear failed
    have again : room (encodeFail s) < hsize (encodedH1 (encodeFail s)) := by
      rw [encodedH1_encodeFail]
      exact short
    refine ⟨_, execEncode_of_short (s := encodeFail s) running inRange again, rfl, ?_⟩
    obtain kept | filled := encodeFail_frameH1_eq (encodeFail s)
    · rw [kept]
      exact encodeFail_frameH1_eq s
    · rw [filled, encodedH1_encodeFail]
      exact .inr rfl

/-! ### Host reads that complete -/

/-- A host read inside the buffer of bytes that hold values gives them (R183). -/
theorem hostReadBytes_of_holdsAt {buf : Buf} {addr : Nat} {bytes : List Byte} {s : State}
    (inside : addr + bytes.length ≤ (bufSize buf s).toNat) (holds : holdsAt (bufMem buf s) addr bytes) :
    hostReadBytes buf addr bytes.length s = .ok bytes := by
  have notOutside : ¬ accessOutside buf addr bytes.length s = true := by
    rw [accessOutside_iff]
    omega
  rw [hostReadBytes, if_neg notOutside, memReadBytes_ok.2 ⟨rfl, holds⟩]

/-- Settles O49: both accesses are the read of the bytes, and a reply is all that either adds. -/
theorem hostReadOfBufferBytesChangesNothing : Obligations.HostReadOfBufferBytesChangesNothing := by
  refine ⟨fun s rest buf addr bytes inside holds next => ?_,
    fun s rest buf addr bytes expected inside holds length next => ?_⟩
  · rw [step_of_action next, perform, hostPeek, hostReadBytes_actions, hostReadBytes_of_holdsAt inside holds]
    rfl
  · rw [step_of_action next, perform, hostExpectBuf, length, hostReadBytes_actions, hostReadBytes_of_holdsAt inside holds]
    rfl

end Sys2Proof.Machine
end

section
/-! The encodings. The decoder of the two opcode spaces and the encoder are inverse to each other (O8), with the words
written out (O7), the four legal command words (O9), the host action an instruction assembles to (O5) and the frame opcodes'
byte (O17). Then the header size (O19) and the spelling of the length (O20, O21). -/

namespace Sys2Proof.Machine

/-! ### Decoding and encoding -/

/-- An instruction's byte, written to the instruction's register, decodes to the instruction: the round trips of all the
rows together. -/
theorem decodePair_encode (i : Instr) : decodePair (encodePort i) (encode i) = .ok i := by
  cases i with
  | encode => exact Laws.RoundTrip.encode rfl
  | decode => exact Laws.RoundTrip.decode rfl
  | maskSrc => exact Laws.RoundTrip.maskSrc rfl
  | maskDst => exact Laws.RoundTrip.maskDst rfl
  | continuation fin rsv1 rsv2 rsv3 => exact Laws.RoundTrip.continuation fin rsv1 rsv2 rsv3 rfl
  | text fin rsv1 rsv2 rsv3 => exact Laws.RoundTrip.text fin rsv1 rsv2 rsv3 rfl
  | binary fin rsv1 rsv2 rsv3 => exact Laws.RoundTrip.binary fin rsv1 rsv2 rsv3 rfl
  | close fin rsv1 rsv2 rsv3 => exact Laws.RoundTrip.close fin rsv1 rsv2 rsv3 rfl
  | ping fin rsv1 rsv2 rsv3 => exact Laws.RoundTrip.ping fin rsv1 rsv2 rsv3 rfl
  | pong fin rsv1 rsv2 rsv3 => exact Laws.RoundTrip.pong fin rsv1 rsv2 rsv3 rfl

/-- A command word is its three fields (R89). -/
theorem commandWord_eq_fields (w : Byte) :
    (reservedField w ++ BitVec.ofBool (bselField w) ++ opField w : BitVec 8) = w := by
  revert w
  decide

/-- A word that decodes as a command is one of the four of R90, and decodes to its mnemonic: its fields, which the decoder
checked, are the whole of it. -/
theorem legalWord_of_decodeCommand {w : Byte} {i : Instr} (h : decodeCommand w = .ok i) :
    (w = 0x01 ∧ i = .encode) ∨ (w = 0x02 ∧ i = .decode) ∨ (w = 0x03 ∧ i = .maskSrc) ∨ (w = 0x13 ∧ i = .maskDst) := by
  have fields := commandWord_eq_fields w
  unfold decodeCommand at h
  split_ifs at h with reserved op bsel op bsel op bsel <;> cases h <;> rw [not_ne_iff.1 reserved, op] at fields
  · rw [Bool.eq_false_of_not_eq_true bsel] at fields
    exact .inl ⟨fields.symm, rfl⟩
  · rw [Bool.eq_false_of_not_eq_true bsel] at fields
    exact .inr (.inl ⟨fields.symm, rfl⟩)
  · rw [bsel] at fields
    exact .inr (.inr (.inr ⟨fields.symm, rfl⟩))
  · rw [Bool.eq_false_of_not_eq_true bsel] at fields
    exact .inr (.inr (.inl ⟨fields.symm, rfl⟩))

/-- Settles O9: the other way round, each of the four is the byte of its command. -/
theorem exactlyFourCommandWordsAreLegal : Obligations.ExactlyFourCommandWordsAreLegal := by
  refine fun w i => ⟨legalWord_of_decodeCommand, ?_⟩
  rintro (⟨rfl, rfl⟩ | ⟨rfl, rfl⟩ | ⟨rfl, rfl⟩ | ⟨rfl, rfl⟩)
  · exact decodePair_encode .encode
  · exact decodePair_encode .decode
  · exact decodePair_encode .maskSrc
  · exact decodePair_encode .maskDst

theorem encode_of_decodeCommand {w : Byte} {i : Instr} (h : decodeCommand w = .ok i) :
    encodePort i = commandPort ∧ encode i = w := by
  obtain ⟨rfl, rfl⟩ | ⟨rfl, rfl⟩ | ⟨rfl, rfl⟩ | ⟨rfl, rfl⟩ := legalWord_of_decodeCommand h <;> exact ⟨rfl, rfl⟩

/-- Header byte 0 decodes to frame opcodes only, never to a command (R86). -/
theorem encodePort_of_decodeHeader0 {b : Byte} {i : Instr} (h : decodeHeader0 b = .ok i) : encodePort i = headerPort := by
  unfold decodeHeader0 at h
  simp only at h
  split_ifs at h <;> cases h <;> rfl

/-- Settles O8: a byte that decodes did so on one of the two registers, and there it is the byte of what it decodes to. -/
theorem decodingInvertsEncoding : Obligations.DecodingInvertsEncoding := by
  refine ⟨fun i _ => decodePair_encode i, fun port value i h => ?_⟩
  unfold decodePair at h
  split at h
  · subst port
    exact encode_of_decodeCommand h
  · split at h
    · subst port
      exact ⟨encodePort_of_decodeHeader0 h, (encode_of_decodeHeader0 h).1⟩
    · cases h

/-- Settles O7: each of the ten words is the byte of its instruction. -/
theorem wordsDecodeToTheirInstructions : Obligations.WordsDecodeToTheirInstructions :=
  ⟨decodePair_encode .encode, decodePair_encode .decode, decodePair_encode .maskSrc, decodePair_encode .maskDst,
    decodePair_encode (.continuation false false false false), decodePair_encode (.text true false false false),
    decodePair_encode (.binary false true false false), decodePair_encode (.close true false false false),
    decodePair_encode (.ping false false true false), decodePair_encode (.pong true false false true)⟩

/-- Settles O5: the action is a host write whose pair decodes to the instruction. -/
theorem assembledInstructionRuns : Obligations.AssembledInstructionRuns :=
  fun s rest i next => stepRunsTheDecodedInstruction s rest (encodePort i) (encode i) i next (decodePair_encode i)

/-- Header byte 0 put together from its fields has those fields (R71). -/
theorem fields_of_header0Byte (fin rsv1 rsv2 rsv3 : Bool) (opcode : BitVec 4) :
    finField (header0Byte fin rsv1 rsv2 rsv3 opcode) = fin ∧ rsv1Field (header0Byte fin rsv1 rsv2 rsv3 opcode) = rsv1 ∧
    rsv2Field (header0Byte fin rsv1 rsv2 rsv3 opcode) = rsv2 ∧ rsv3Field (header0Byte fin rsv1 rsv2 rsv3 opcode) = rsv3 ∧
    opcodeField (header0Byte fin rsv1 rsv2 rsv3 opcode) = opcode := by
  revert fin rsv1 rsv2 rsv3 opcode
  decide

/-- Settles O17: each row loads the byte put together from its FIN, its RSV bits and its opcode. -/
theorem frameOpcodeSetsHeaderByte0Alone : Obligations.FrameOpcodeSetsHeaderByte0Alone := by
  intro fin rsv1 rsv2 rsv3 s i opcode row
  refine ⟨header0Byte fin rsv1 rsv2 rsv3 opcode, ?_, fields_of_header0Byte fin rsv1 rsv2 rsv3 opcode⟩
  simp only [List.mem_cons, List.not_mem_nil, or_false, Prod.mk.injEq] at row
  obtain ⟨rfl, rfl⟩ | ⟨rfl, rfl⟩ | ⟨rfl, rfl⟩ | ⟨rfl, rfl⟩ | ⟨rfl, rfl⟩ | ⟨rfl, rfl⟩ := row <;> rfl

/-! ### The length on the wire -/

/-- Settles O19: the indicator announces 2, 8 or no extended length bytes, and MASKF the four bytes of a key. -/
theorem headerSizeComesFromByte1 : Obligations.HeaderSizeComesFromByte1 := by
  intro b1
  unfold hsize
  obtain ⟨ind, size⟩ | ⟨ind, size⟩ | ⟨small, size⟩ := ext_cases (lenIndField b1)
  · rw [size]
    cases maskFlag b1 <;> simp [ind]
  · rw [size]
    cases maskFlag b1 <;> simp [ind]
  · rw [size]
    cases maskFlag b1 <;> simp [small]

/-- One more byte is one more digit, the least significant (R54). -/
theorem beNat_append_singleton (bs : List Byte) (b : Byte) : beNat (bs ++ [b]) = beNat bs * 256 + b.toNat := by
  simp [beNat, List.foldl_append]

/-- `n` bytes spell a number below `256 ^ n`. -/
theorem beNat_lt (bs : List Byte) : beNat bs < 256 ^ bs.length := by
  induction bs using List.reverseRecOn with
  | nil => decide
  | append_singleton bs b ih =>
    rw [beNat_append_singleton, List.length_append, List.length_singleton, Nat.pow_succ]
    have := b.isLt
    omega

/-- The length a header announces (R75). No extended length is too long for 64 bits. -/
theorem assembleLen_toNat {ind : BitVec 7} {extended : List Byte} (length : extended.length = ext ind) :
    (assembleLen ind extended).toNat = if ind.toNat ≤ 125 then ind.toNat else beNat extended := by
  have bound := beNat_lt extended
  rw [length] at bound
  obtain ⟨rfl, size⟩ | ⟨rfl, size⟩ | ⟨small, -⟩ := ext_cases ind
  · rw [size] at bound
    exact (BitVec.toNat_ofNat _ _).trans (Nat.mod_eq_of_lt (bound.trans (by decide)))
  · rw [size] at bound
    exact (BitVec.toNat_ofNat _ _).trans (Nat.mod_eq_of_lt bound)
  · have not126 : ind ≠ 126 := by rintro rfl; exact absurd small (by decide)
    have not127 : ind ≠ 127 := by rintro rfl; exact absurd small (by decide)
    rw [if_pos small, assembleLen, if_neg not126, if_neg not127, BitVec.toNat_setWidth]
    omega

/-- The extended length bytes spell the length, where there are any (R76). -/
theorem beNat_extBytes {len : Word} (long : 126 ≤ len.toNat) : beNat (extBytes len) = len.toNat := by
  obtain ⟨short, -⟩ | ⟨-, fits, -, spelling, -⟩ | ⟨-, -, spelling, -⟩ := lenind_cases len
  · omega
  · rw [spelling, beNat_be16, BitVec.extractLsb'_toNat]
    omega
  · rw [spelling, beNat_be64]

/-- The shortest spelling of a length is a spelling of it. -/
theorem assembleLen_lenind (len : Word) : assembleLen (lenind len) (extBytes len) = len := by
  apply BitVec.eq_of_toNat_eq
  rw [assembleLen_toNat (extBytes_length len)]
  obtain ⟨short, -, ind, -⟩ | ⟨long, -, ind, -⟩ | ⟨long, ind, -⟩ := lenind_cases len
  · rw [ind, if_pos (by omega)]
  · rw [ind, if_neg (by decide), beNat_extBytes long]
  · rw [ind, if_neg (by decide), beNat_extBytes (by omega)]

/-- Settles O21. -/
theorem lengthIsAssembledBigEndian : Obligations.LengthIsAssembledBigEndian :=
  ⟨fun _ _ => assembleLen_toNat, beNat_append_singleton, assembleLen_lenind⟩

/-- The number of extended bytes of the shortest spelling goes by the magnitude of the length (R76). -/
theorem ext_lenind (len : Word) :
    ext (lenind len) = if len.toNat < 126 then 0 else if len.toNat < 65536 then 2 else 8 := by
  obtain ⟨short, -, -, -, size⟩ | ⟨long, fits, -, -, size⟩ | ⟨long, -, -, size⟩ := lenind_cases len
  · rw [size, if_pos short]
  · rw [size, if_neg (Nat.not_lt.2 long), if_pos fits]
  · rw [size, if_neg (by omega), if_neg (Nat.not_lt.2 long)]

/-- No spelling has fewer extended bytes than the shortest: what fewer bytes can spell has a smaller magnitude. -/
theorem ext_lenind_le {ind : BitVec 7} {extended : List Byte} (length : extended.length = ext ind) :
    ext (lenind (assembleLen ind extended)) ≤ ext ind := by
  have bound := beNat_lt extended
  rw [ext_lenind, assembleLen_toNat length]
  obtain ⟨rfl, size⟩ | ⟨rfl, size⟩ | ⟨small, size⟩ := ext_cases ind <;> rw [length, size] at bound <;> rw [size]
  · split_ifs <;> omega
  · split_ifs <;> omega
  · rw [if_pos small, if_pos (by omega)]

/-- Settles O20. -/
theorem encoderPicksTheShortestLength : Obligations.EncoderPicksTheShortestLength := by
  intro len
  refine ⟨fun short => ?_, fun long fits => ?_, fun long => ?_, ?_⟩
  · obtain ⟨-, -, ind, spelling, -⟩ | ⟨long, -⟩ | ⟨long, -⟩ := lenind_cases len
    · exact ⟨ind, spelling⟩
    · omega
    · omega
  · obtain ⟨short, -⟩ | ⟨-, -, ind, spelling, -⟩ | ⟨longer, -⟩ := lenind_cases len
    · omega
    · exact ⟨ind, congrArg List.length spelling, beNat_extBytes long⟩
    · omega
  · obtain ⟨short, -⟩ | ⟨-, fits, -⟩ | ⟨-, ind, spelling, -⟩ := lenind_cases len
    · omega
    · omega
    · exact ⟨ind, congrArg List.length spelling, beNat_extBytes (by omega)⟩
  · rintro ind extended length rfl
    exact ext_lenind_le length

end Sys2Proof.Machine
end

section
/-! Header byte 0 and the commands (O18), and two rules they rest on: what a halted block answers, and what a command out of
range answers. Then POKE (O48) and the pseudo-instructions run to their end (O51). -/

namespace Sys2Proof.Machine

/-! ### The checks every command makes first -/

/-- A halted block executes no command (R148). -/
theorem exec_of_halted {i : Instr} {s : State} (command : encodePort i = commandPort) (halt : s.fault ≠ 0) :
    exec i s = .next s := by
  have halt := (halted_iff s).2 halt
  cases i with
  | encode => exact if_pos halt
  | decode => exact if_pos halt
  | maskSrc => exact if_pos halt
  | maskDst => exact if_pos halt
  | continuation | text | binary | close | ping | pong =>
    exact absurd (show headerPort = commandPort from command) (by decide)

/-- A command out of its range raises RANGE and does nothing else (R146). -/
theorem exec_of_rangeFails {i : Instr} {s : State} (running : s.fault = 0) (fails : rangeFails i s) :
    exec i s = .next (raiseFault faultRange s) := by
  have running := (halted_false_iff s).2 running
  cases i with
  | encode =>
    show execEncode s = _
    rw [execEncode, running, if_neg Bool.false_ne_true]
    exact if_pos ((cursorOutside_iff _ _ _).2 fails)
  | decode =>
    show execDecode s = _
    rw [execDecode, running, if_neg Bool.false_ne_true]
    exact if_pos ((cursorOutside_iff _ _ _).2 fails)
  | maskSrc =>
    show maskSlice .src s = _
    rw [maskSlice, running, if_neg Bool.false_ne_true]
    exact if_pos ((sliceOutside_iff _ _ _ _).2 fails)
  | maskDst =>
    show maskSlice .dst s = _
    rw [maskSlice, running, if_neg Bool.false_ne_true]
    exact if_pos ((sliceOutside_iff _ _ _ _).2 fails)
  | continuation | text | binary | close | ping | pong => cases fails

theorem execEncode_of_fits {s : State} (running : s.fault = 0) (inRange : encodeInRange s)
    (fits : hsize (encodedH1 s) ≤ room s) :
    execEncode s =
      .next (encodeCommit (memWriteBytes s.dst s.wcur.toNat (encodedHeader s)) (hsize (encodedH1 s)) s) := by
  obtain ⟨halt, -⟩ | ⟨-, outside, -⟩ | ⟨-, -, short, -⟩ | ⟨-, -, -, he⟩ := execEncode_cases s
  · exact absurd running halt
  · exact absurd inRange outside
  · omega
  · exact he

/-! ### Header byte 0

`loadHeader0 h s` is the state `s` with `h` in FRAME_H0. None of a command's checks reads FRAME_H0, so each command takes the
same way in both states. -/

/-- MASK neither reads nor writes FRAME_H0. -/
theorem maskSlice_loadHeader0 (buf : Buf) (h : Byte) (s : State) :
    maskSlice buf (loadHeader0 h s) = mapNext (loadHeader0 h) (maskSlice buf s) := by
  have halt : halted (loadHeader0 h s) = halted s := rfl
  have memory : bufMem buf (loadHeader0 h s) = bufMem buf s := by cases buf <;> rfl
  have limit : bufLimit buf (loadHeader0 h s) = bufLimit buf s := by cases buf <;> rfl
  have size : bufSize buf (loadHeader0 h s) = bufSize buf s := by cases buf <;> rfl
  have store (m : Memory) : setBufMem buf m (loadHeader0 h s) = loadHeader0 h (setBufMem buf m s) := by cases buf <;> rfl
  unfold maskSlice
  simp only [halt, memory, limit, size, store, loadHeader0_mStart, loadHeader0_mN, loadHeader0_mOff, loadHeader0_key,
    loadHeader0_frameH1]
  split_ifs
  · rfl
  · rfl
  · cases memReadBytes buf (bufMem buf s) s.mStart.toNat s.mN.toNat <;> rfl
  · rfl

/-- DECODE overwrites FRAME_H0 where it succeeds (R104). -/
theorem decodeCommit_loadHeader0 (h b0 b1 : Byte) (len : Word) (key : Option Key) (s : State) :
    decodeCommit b0 b1 len key (loadHeader0 h s) = decodeCommit b0 b1 len key s := by
  cases key <;> rfl

/-- A successful DECODE moves RCUR: a header has at least 2 bytes. -/
theorem decodeCommit_rcur_ne {s : State} {b1 : Byte} (b0 : Byte) (len : Word) (key : Option Key)
    (inRange : decodeInRange s) (fits : hsize b1 ≤ available s) : (decodeCommit b0 b1 len key s).rcur ≠ s.rcur := by
  have moved := cursor_moved_toNat inRange.1 fits
  have rcur : (decodeCommit b0 b1 len key s).rcur = BitVec.ofNat 64 (s.rcur.toNat + hsize b1) := by cases key <;> rfl
  intro same
  rw [← rcur, same] at moved
  have := hsize_pos b1
  omega

/-- With another byte in FRAME_H0 a DECODE that moves no cursor does the same and leaves that byte, and one that succeeds
does exactly the same, its byte 0 being the one that arrived. -/
theorem execDecode_loadHeader0 {s t : State} (h : Byte) (completes : execDecode s = .next t) :
    (t.rcur = s.rcur ∧ t.frameH0 = s.frameH0 ∧ execDecode (loadHeader0 h s) = .next (loadHeader0 h t)) ∨
    (t.rcur ≠ s.rcur ∧ memRead s.src s.rcur.toNat = some t.frameH0 ∧ execDecode (loadHeader0 h s) = .next t) := by
  obtain ⟨halt, he⟩ | ⟨running, outside, he⟩ | ⟨running, inRange, he⟩ := execDecode_cases s <;> rw [he] at completes
  · cases completes
    exact .inl ⟨rfl, rfl, exec_of_halted (i := .decode) rfl halt⟩
  · cases completes
    exact .inl ⟨rfl, rfl, exec_of_rangeFails (i := .decode) running ((rangeFails_decode s).2 outside)⟩
  · have he' := execDecode_of_running (s := loadHeader0 h s) running inRange
    change execDecode (loadHeader0 h s) =
      decodeOutcome (readHeader s.src s.rcur.toNat (available s)) (loadHeader0 h s) at he'
    match found : readHeader s.src s.rcur.toNat (available s) with
    | .error f => rw [found] at completes; cases completes
    | .ok .short =>
      rw [found] at completes he'
      cases completes
      exact .inl ⟨rfl, rfl, he'⟩
    | .ok (.header b0 b1 len key) =>
      rw [found] at completes he'
      cases completes
      obtain ⟨fits, byte0, -⟩ := readHeader_header.1 found
      refine .inr ⟨decodeCommit_rcur_ne b0 len key inRange fits, ?_, ?_⟩
      · rw [byte0]
        cases key <;> rfl
      · rw [he', decodeOutcome, decodeCommit_loadHeader0]

/-- The header ENCODE writes is FRAME_H0 and bytes in which FRAME_H0 has no part (R101). -/
theorem encodedHeader_loadHeader0 (h : Byte) (s : State) :
    encodedHeader (loadHeader0 h s) = h :: (encodedHeader s).tail :=
  rfl

theorem encodedHeader_eq_cons (s : State) : encodedHeader s = s.frameH0 :: (encodedHeader s).tail :=
  rfl

theorem memRead_memWriteBytes_head (m : Memory) (a : Nat) (b : Byte) (bs : List Byte) :
    memRead (memWriteBytes m a (b :: bs)) a = some b := by
  simp [memRead_memWriteBytes]

/-- The first byte of a sequence that is written makes no difference at any other address. -/
theorem memRead_memWriteBytes_of_ne_head (m : Memory) {a x : Nat} (other : x ≠ a) (b b' : Byte) (bs : List Byte) :
    memRead (memWriteBytes m a (b :: bs)) x = memRead (memWriteBytes m a (b' :: bs)) x := by
  simp only [memWriteBytes, memRead_memWriteBytes, memRead_memWrite, if_neg other]

/-- With another byte in FRAME_H0 an ENCODE that moves no cursor does the same, and one that succeeds does the same but for
the byte at WCUR. -/
theorem execEncode_loadHeader0 {s t : State} (h : Byte) (completes : execEncode s = .next t) :
    (t.wcur = s.wcur ∧ execEncode (loadHeader0 h s) = .next (loadHeader0 h t)) ∨
    (t.dst = memWriteBytes s.dst s.wcur.toNat (encodedHeader s) ∧
      execEncode (loadHeader0 h s) =
        .next { loadHeader0 h t with dst := memWriteBytes s.dst s.wcur.toNat (h :: (encodedHeader s).tail) }) := by
  obtain ⟨halt, he⟩ | ⟨running, outside, he⟩ | ⟨running, inRange, short, he⟩ | ⟨running, inRange, fits, he⟩ :=
    execEncode_cases s <;> rw [he] at completes <;> cases completes
  · exact .inl ⟨rfl, exec_of_halted (i := .encode) rfl halt⟩
  · exact .inl ⟨rfl, exec_of_rangeFails (i := .encode) running ((rangeFails_encode s).2 outside)⟩
  · exact .inl ⟨rfl, execEncode_of_short (s := loadHeader0 h s) running inRange short⟩
  · exact .inr ⟨rfl, execEncode_of_fits (s := loadHeader0 h s) running inRange fits⟩

/-- Settles O18: `{ s with frameH0 := h }` is `loadHeader0 h s`, so each clause is the command's lemma above. -/
theorem commandsTreatEveryHeaderByte0Alike : Obligations.CommandsTreatEveryHeaderByte0Alike := by
  refine fun s h => ⟨fun buf => ?_, fun t completes => ?_, fun t completes => ?_⟩
  · rw [exec_maskOf, exec_maskOf]
    exact maskSlice_loadHeader0 buf h s
  · obtain ⟨rcur, kept, he⟩ | ⟨rcur, byte0, he⟩ := execDecode_loadHeader0 h completes
    · exact ⟨_, he, rfl, fun moved => absurd rcur moved, fun _ => ⟨rfl, kept⟩⟩
    · exact ⟨_, he, rfl, fun _ => ⟨rfl, byte0⟩, fun same => absurd same rcur⟩
  · obtain ⟨wcur, he⟩ | ⟨dst, he⟩ := execEncode_loadHeader0 h completes
    · exact ⟨_, he, rfl, rfl, fun _ _ => rfl, fun moved => absurd wcur moved⟩
    · refine ⟨_, he, rfl, rfl, fun a other => ?_, fun _ => memRead_memWriteBytes_head _ _ _ _⟩
      rw [dst, encodedHeader_eq_cons s]
      exact memRead_memWriteBytes_of_ne_head _ other _ _ _

/-! ### POKE -/

theorem hostPoke_of_inside {buf : Buf} {addr : Nat} {bytes : List Byte} {s : State}
    (inside : addr + bytes.length ≤ (bufSize buf s).toNat) :
    hostPoke buf addr bytes s = .next (setBufMem buf (memWriteBytes (bufMem buf s) addr bytes) s) := by
  have notOutside : ¬ accessOutside buf addr bytes.length s = true := by
    rw [accessOutside_iff]
    omega
  rw [hostPoke, if_neg notOutside]

/-- Settles O48. -/
theorem pokeWritesTheBytes : Obligations.PokeWritesTheBytes := by
  intro s rest buf addr bytes inside next
  refine ⟨memWriteBytes (bufMem buf s) addr bytes, ?_, holdsAt_memWriteBytes _ _ _,
    sameOutside_memWriteBytes _ _ _ _ rfl⟩
  rw [step_of_action next, perform]
  cases buf <;> exact hostPoke_of_inside inside

/-! ### The pseudo-instructions -/

/-- A run takes the next action and goes on from what it leaves. -/
theorem run_of_perform {s t : State} {a : HostAction} {rest : List HostAction} (n : Nat) (next : s.actions = a :: rest)
    (h : perform a { s with actions := rest } = .next t) : Host.Core.run core (n + 1) s = Host.Core.run core n t := by
  have stepped : core.step s = .next t := (step_of_action next).trans h
  simp only [Host.Core.run, stepped]

/-- A run of one step is the step. -/
theorem run_one (s : State) : Host.Core.run core 1 s = step s := by
  change _ = core.step s
  simp only [Host.Core.run]
  cases core.step s <;> rfl

/-- A run stores the value of a host write of a register other than CMD, and goes on. -/
theorem run_of_set {s : State} {rest : List HostAction} {v : Nat} (n : Nat) (r : Reg)
    (next : s.actions = .set (regNumber r) v :: rest) (writable : hostWritable r = true) (command : r ≠ .cmd)
    (fits : v < 2 ^ regWidth r) :
    Host.Core.run core (n + 1) s =
      Host.Core.run core n { writeReg r (BitVec.ofNat 64 v) s with actions := rest } := by
  rw [← writeReg_actions]
  exact run_of_perform n next (hostSet_regNumber writable command fits _)

/-- The same for a value given as the 64-bit word that is stored. -/
theorem run_of_set_word {s : State} {rest : List HostAction} {w : Word} (n : Nat) (r : Reg)
    (next : s.actions = .set (regNumber r) w.toNat :: rest) (writable : hostWritable r = true) (wide : regWidth r = 64) :
    Host.Core.run core (n + 1) s = Host.Core.run core n { writeReg r w s with actions := rest } := by
  have command : r ≠ .cmd := by
    rintro rfl
    exact absurd wide (by decide)
  have fits : w.toNat < 2 ^ regWidth r := by
    rw [wide]
    exact w.isLt
  have stored := run_of_set n r next writable command fits
  rwa [BitVec.ofNat_toNat, BitVec.setWidth_eq] at stored

theorem run_feed {s : State} {rest : List HostAction} {bytes : List Byte}
    (inside : s.srcLen.toNat + bytes.length ≤ s.srcMax.toNat) (next : s.actions = .feed bytes :: rest) :
    Host.Core.run core 3 s = .next { fed bytes s with actions := rest } := by
  have fits : s.srcLen.toNat + bytes.length < 2 ^ regWidth .srcLen := inside.trans_lt s.srcMax.isLt
  calc Host.Core.run core 3 s
      = Host.Core.run core 2 { s with actions := expandFeed bytes s ++ rest } := run_of_perform 2 next rfl
    _ = Host.Core.run core 1
          { s with
            src := memWriteBytes s.src s.srcLen.toNat bytes
            actions := .set (regNumber .srcLen) (s.srcLen.toNat + bytes.length) :: rest } :=
        run_of_perform 1 rfl (hostPoke_of_inside (buf := .src) inside)
    _ = .next { fed bytes s with actions := rest } := run_of_set 0 .srcLen rfl rfl (by decide) fits

theorem run_skip {s : State} {rest : List HostAction} {n : Nat} (fits : s.rcur.toNat + n < 2 ^ 64)
    (next : s.actions = .skip n :: rest) :
    Host.Core.run core 2 s = .next { s with rcur := s.rcur + BitVec.ofNat 64 n, actions := rest } := by
  have sum : s.rcur + BitVec.ofNat 64 n = BitVec.ofNat 64 (s.rcur.toNat + n) := by
    rw [BitVec.ofNat_add, BitVec.ofNat_toNat, BitVec.setWidth_eq]
  rw [sum]
  calc Host.Core.run core 2 s
      = Host.Core.run core 1 { s with actions := expandSkip n s ++ rest } := run_of_perform 1 next rfl
    _ = .next { s with rcur := BitVec.ofNat 64 (s.rcur.toNat + n), actions := rest } :=
        run_of_set 0 .rcur rfl rfl (by decide) fits

theorem run_drain {s : State} {rest : List HostAction} {bytes : List Byte} (inside : s.wcur.toNat ≤ s.dstMax.toNat)
    (length : bytes.length = s.wcur.toNat) (holds : holdsAt s.dst 0 bytes) (next : s.actions = .drain :: rest) :
    Host.Core.run core 3 s = .next { s with wcur := 0, actions := rest, replies := .bytes bytes :: s.replies } := by
  have read : hostReadBytes .dst 0 s.wcur.toNat s = .ok bytes := by
    rw [← length]
    refine hostReadBytes_of_holdsAt ?_ holds
    rw [Nat.zero_add, length]
    exact inside
  have peek (t : State) (same : hostReadBytes .dst 0 s.wcur.toNat t = hostReadBytes .dst 0 s.wcur.toNat s) :
      hostPeek .dst 0 s.wcur.toNat t = .next (reply (.bytes bytes) t) := by
    rw [hostPeek, same, read]
  calc Host.Core.run core 3 s
      = Host.Core.run core 2 { s with actions := expandDrain s ++ rest } := run_of_perform 2 next rfl
    _ = Host.Core.run core 1
          { s with actions := .set (regNumber .wcur) 0 :: rest, replies := .bytes bytes :: s.replies } :=
        run_of_perform 1 rfl (peek _ (hostReadBytes_actions _ _ _ _ _))
    _ = .next { s with wcur := 0, actions := rest, replies := .bytes bytes :: s.replies } :=
        run_of_set 0 .wcur rfl rfl (by decide) (by decide)

theorem run_maskAt {s : State} {rest : List HostAction} {buf : Buf} {start n off : Word}
    (next : s.actions = .maskAt buf start.toNat n.toNat off.toNat :: rest) :
    Host.Core.run core 5 s =
      exec (maskOf buf) { s with mStart := start, mN := n, mOff := off, actions := rest } := by
  have expanded : expandMaskAt buf start.toNat n.toNat off.toNat =
      [.set (regNumber .mStart) start.toNat, .set (regNumber .mN) n.toNat, .set (regNumber .mOff) off.toNat,
        instrAction (maskOf buf)] := by cases buf <;> rfl
  have operandsSet : Host.Core.run core 5 s =
      Host.Core.run core 1 { s with mStart := start, mN := n, mOff := off, actions := instrAction (maskOf buf) :: rest } :=
    calc Host.Core.run core 5 s
        = Host.Core.run core 4 { s with actions := expandMaskAt buf start.toNat n.toNat off.toNat ++ rest } :=
          run_of_perform 4 next rfl
      _ = Host.Core.run core 3
            { s with
              mStart := start
              actions := .set (regNumber .mN) n.toNat :: .set (regNumber .mOff) off.toNat ::
                instrAction (maskOf buf) :: rest } := by
          rw [expanded]
          exact run_of_set_word 3 .mStart rfl rfl rfl
      _ = Host.Core.run core 2
            { s with
              mStart := start
              mN := n
              actions := .set (regNumber .mOff) off.toNat :: instrAction (maskOf buf) :: rest } :=
          run_of_set_word 2 .mN rfl rfl rfl
      _ = Host.Core.run core 1
            { s with mStart := start, mN := n, mOff := off, actions := instrAction (maskOf buf) :: rest } :=
          run_of_set_word 1 .mOff rfl rfl rfl
  rw [operandsSet, run_one]
  exact assembledInstructionRuns _ rest (maskOf buf) rfl

/-- Settles O51. -/
theorem pseudoInstructionsDoTheirActions : Obligations.PseudoInstructionsDoTheirActions :=
  fun _ _ => ⟨fun _ => run_feed, fun _ => run_skip, fun _ => run_drain, fun _ _ _ _ => run_maskAt⟩

end Sys2Proof.Machine
end

section
/-! The bytes of a whole header as one sequence (R70, R101). ENCODE writes such a sequence, and DECODE finds a header exactly
where one stands; the layout (O22) and the laws of the codec are read off these two facts. -/

namespace Sys2Proof.Machine

/-- The bytes of a header in wire order (R70): bytes 0 and 1, the extended length, the key where there is one. -/
def wireBytes (b0 b1 : Byte) (extended : List Byte) (key : Option Key) : List Byte :=
  b0 :: b1 :: (extended ++ key.elim [] keyBytes)

/-- The key a header with this byte 1 carries: none where MASKF is clear (R77). -/
def carriedKey (b1 : Byte) (key : Key) : Option Key :=
  if maskFlag b1 then some key else none

theorem carriedKey_isSome (b1 : Byte) (key : Key) : (carriedKey b1 key).isSome = maskFlag b1 := by
  unfold carriedKey
  cases maskFlag b1 <;> rfl

theorem wireBytes_length {b0 b1 : Byte} {extended : List Byte} {key : Option Key}
    (length : extended.length = ext (lenIndField b1)) (masked : key.isSome = maskFlag b1) :
    (wireBytes b0 b1 extended key).length = hsize b1 := by
  unfold hsize
  rw [← length, ← masked]
  cases key <;> simp [wireBytes] <;> omega

theorem encodeBytes_eq_wireBytes (h0 h1 : Byte) (len : Word) (key : Key) :
    encodeBytes h0 h1 len key = wireBytes h0 h1 (extBytes len) (carriedKey h1 key) := by
  unfold encodeBytes wireBytes carriedKey
  cases maskFlag h1 <;> rfl

theorem keyBytes_getElem? (key : Key) {k : Nat} (hk : k < 4) : (keyBytes key)[k]? = some (keyLane key k) := by
  match k, hk with
  | 0, _ | 1, _ | 2, _ | 3, _ => rfl

/-- The size byte 1 announces is the size of an encoded header, its length indicator being that of the length (R101). -/
theorem encodeBytes_length {h0 h1 : Byte} {len : Word} {key : Key} (indicator : lenIndField h1 = lenind len) :
    (encodeBytes h0 h1 len key).length = hsize h1 := by
  rw [encodeBytes_eq_wireBytes]
  exact wireBytes_length (by rw [extBytes_length, indicator]) (carriedKey_isSome h1 key)

/-- Settles O22: the parts of the header are looked up past the bytes before them. -/
theorem encodedHeaderLayout : Obligations.EncodedHeaderLayout := by
  intro h0 h1 len key indicator
  have length : (extBytes len).length = ext (lenIndField h1) := by rw [extBytes_length, indicator]
  refine ⟨encodeBytes_length indicator, rfl, rfl, fun j hj => ?_, fun masked k hk => ?_⟩
  · rw [encodeBytes_eq_wireBytes, wireBytes, Nat.add_comm 2 j, List.getElem?_cons_succ, List.getElem?_cons_succ,
      List.getElem?_append_left (length ▸ hj)]
  · rw [encodeBytes_eq_wireBytes, wireBytes, carriedKey, if_pos masked, ← length,
      show 2 + (extBytes len).length + k = (extBytes len).length + k + 1 + 1 by omega, List.getElem?_cons_succ,
      List.getElem?_cons_succ, List.getElem?_append_right (Nat.le_add_right _ _), Nat.add_sub_cancel_left]
    exact keyBytes_getElem? key hk

/-! ### Where DECODE finds a header -/

theorem holdsAt_wireBytes {m : Memory} {p : Nat} {b0 b1 : Byte} {extended : List Byte} {key : Option Key} :
    holdsAt m p (wireBytes b0 b1 extended key) ↔
      memRead m p = some b0 ∧ memRead m (p + 1) = some b1 ∧ holdsAt m (p + 2) extended ∧
        holdsAt m (p + 2 + extended.length) (key.elim [] keyBytes) := by
  rw [wireBytes, holdsAt_cons, holdsAt_cons, holdsAt_append]

/-- DECODE finds a header exactly where the bytes of one stand, as many as its byte 1 announces. -/
theorem readHeader_iff_holdsAt {m : Memory} {p avail : Nat} {b0 b1 : Byte} {len : Word} {key : Option Key} :
    readHeader m p avail = .ok (.header b0 b1 len key) ↔
      hsize b1 ≤ avail ∧ key.isSome = maskFlag b1 ∧ ∃ extended, extended.length = ext (lenIndField b1) ∧
        assembleLen (lenIndField b1) extended = len ∧ holdsAt m p (wireBytes b0 b1 extended key) := by
  simp only [readHeader_header, holdsAt_wireBytes]
  constructor
  · rintro ⟨whole, h0, h1, ⟨extended, length, hext, rfl⟩, hkey⟩
    rw [← length] at hkey
    split at hkey
    · rename_i masked
      obtain ⟨k, rfl, hkey⟩ := hkey
      exact ⟨whole, masked.symm, extended, length, rfl, h0, h1, hext, hkey⟩
    · rename_i unmasked
      subst hkey
      exact ⟨whole, (Bool.eq_false_of_not_eq_true unmasked).symm, extended, length, rfl, h0, h1, hext, holdsAt_nil _ _⟩
  · rintro ⟨whole, masked, extended, length, rfl, h0, h1, hext, hkey⟩
    refine ⟨whole, h0, h1, ⟨extended, length, hext, rfl⟩, ?_⟩
    rw [← masked, ← length]
    cases key with
    | none => rfl
    | some k => exact ⟨k, rfl, hkey⟩

/-- Where an encoded header stands, DECODE finds the frame it was encoded from: the shortest spelling of a length is a
spelling of it. -/
theorem readHeader_of_encodeBytes {m : Memory} {p avail : Nat} {h0 h1 : Byte} {len : Word} {key : Key}
    (indicator : lenIndField h1 = lenind len) (whole : hsize h1 ≤ avail)
    (holds : holdsAt m p (encodeBytes h0 h1 len key)) :
    readHeader m p avail = .ok (.header h0 h1 len (carriedKey h1 key)) := by
  rw [encodeBytes_eq_wireBytes] at holds
  refine readHeader_iff_holdsAt.2 ⟨whole, carriedKey_isSome h1 key, extBytes len, ?_, ?_, holds⟩
  · rw [extBytes_length, indicator]
  · rw [indicator, assembleLen_lenind]

/-- Bytes that stand in one buffer stand wherever as many bytes read the same. -/
theorem holdsAt_of_same {m m' : Memory} {a a' n : Nat} {bs : List Byte} (inside : bs.length ≤ n)
    (same : ∀ j, j < n → memRead m' (a' + j) = memRead m (a + j)) (holds : holdsAt m a bs) : holdsAt m' a' bs :=
  fun j hj => (same j (hj.trans_le inside)).trans (holds j hj)

/-! ### What a successful command did -/

/-- A successful ENCODE is one whose header fitted (R100). -/
theorem encode_succeeded {s t : State} (running : s.fault = 0) (h : exec .encode s = .next t) (clear : t.fault = 0)
    (ok : t.status = statusOk) :
    encodeInRange s ∧ hsize (encodedH1 s) ≤ room s ∧
      t = encodeCommit (memWriteBytes s.dst s.wcur.toNat (encodedHeader s)) (hsize (encodedH1 s)) s := by
  obtain ⟨halt, -⟩ | ⟨-, -, he⟩ | ⟨-, -, -, he⟩ | ⟨-, inRange, fits, he⟩ := execEncode_cases s
  · exact absurd running halt
  · cases he.symm.trans h
    exact absurd clear (raiseFault_faultRange_halts running)
  · cases he.symm.trans h
    cases ok
  · cases he.symm.trans h
    exact ⟨inRange, fits, rfl⟩

/-- A successful DECODE is one that found a whole header (R104). -/
theorem decode_succeeded {s t : State} (running : s.fault = 0) (h : exec .decode s = .next t) (clear : t.fault = 0)
    (ok : t.status = statusOk) :
    ∃ b0 b1 len key, readHeader s.src s.rcur.toNat (available s) = .ok (.header b0 b1 len key) ∧
      t = decodeCommit b0 b1 len key s := by
  obtain ⟨halt, -⟩ | ⟨-, -, he⟩ | ⟨-, -, he⟩ := execDecode_cases s
  · exact absurd running halt
  · cases he.symm.trans h
    exact absurd clear (raiseFault_faultRange_halts running)
  · have ends := he.symm.trans h
    match found : readHeader s.src s.rcur.toNat (available s) with
    | .error f => rw [found] at ends; cases ends
    | .ok .short => rw [found] at ends; cases ends; cases ok
    | .ok (.header b0 b1 len key) =>
      rw [found] at ends
      cases ends
      exact ⟨b0, b1, len, key, rfl, rfl⟩

/-- What a successful DECODE stores, its header masked or not; an unmasked header draws the key (R106). -/
theorem decodeCommit_eq (b0 b1 : Byte) (len : Word) (key : Option Key) (s : State) :
    decodeCommit b0 b1 len key s =
      setResult statusOk 0 (BitVec.ofNat 64 (hsize b1)) 0
        { commitFrame b0 b1 len (key.getD (Config.drawnKey s.draws s.key)) s with
          rcur := BitVec.ofNat 64 (s.rcur.toNat + hsize b1)
          draws := if key.isSome then s.draws else s.draws + 1 } := by
  cases key <;> rfl

theorem execDecode_of_header {s : State} {b0 b1 : Byte} {len : Word} {key : Option Key} (running : s.fault = 0)
    (inRange : decodeInRange s) (found : readHeader s.src s.rcur.toNat (available s) = .ok (.header b0 b1 len key)) :
    execDecode s = .next (decodeCommit b0 b1 len key s) := by
  rw [execDecode_of_running running inRange, found, decodeOutcome]

/-- Settles O33: the header ENCODE wrote has the shortest indicator of its length in byte 1, so DECODE finds that frame where
the same bytes stand. -/
theorem decodeOfEncodedFrameIsTheFrame : Obligations.DecodeOfEncodedFrameIsTheFrame := by
  intro s t u running h clear ok runningU inRange whole same
  obtain ⟨-, -, rfl⟩ := encode_succeeded running h clear ok
  rw [encodeCommit_resWritten, hsize_toNat] at whole same
  have holds : holdsAt u.src u.rcur.toNat (encodedHeader s) :=
    holdsAt_of_same (encodedHeader_length s).le same (holdsAt_memWriteBytes s.dst _ _)
  have found := readHeader_of_encodeBytes (lenIndField_withLenInd _ _) whole holds
  refine ⟨_, execDecode_of_header runningU inRange found, ?_⟩
  rw [decodeCommit_eq]
  refine ⟨rfl, rfl, maskFlag_withLenInd _ _, lenIndField_withLenInd _ _, rfl, rfl, rfl, fun masked => ?_⟩
  have carried : carriedKey (encodedH1 s) s.key = some s.key := if_pos (by rw [encodedH1, maskFlag_withLenInd, masked])
  show (carriedKey (encodedH1 s) s.key).getD _ = s.key
  rw [carried, Option.getD_some]

end Sys2Proof.Machine
end

section
/-! A command that succeeds, in full: ENCODE writes its header (O23) with the indicator overwritten (O25), DECODE stores the
one it found (O27), or stores nothing where it ran short (O28), and DECODE depends on the unread bytes alone (O29). -/

namespace Sys2Proof.Machine

/-! ### ENCODE -/

/-- Settles O23. -/
theorem encodeWritesTheHeader : Obligations.EncodeWritesTheHeader := by
  intro s running below valid fits
  have length : (encodedHeader s).length = hsize (encodedH1 s) := encodedHeader_length s
  refine ⟨_, execEncode_of_fits running ⟨below, valid⟩ fits, fun j hj => ?_, fun a outside => ?_, ?_, hsize_toNat _, rfl⟩
  · exact holdsAt_memWriteBytes s.dst s.wcur.toNat (encodedHeader s) j (hj.trans_eq length.symm)
  · exact sameOutside_memWriteBytes s.dst s.wcur.toNat _ _ length a outside
  · exact cursor_moved_toNat below fits

/-- ENCODE overwrites bits 6:0 of FRAME_H1, so what they held makes no difference to a run that succeeds (R102). -/
theorem execEncode_withLenInd {s : State} (ind : BitVec 7) (running : s.fault = 0) (inRange : encodeInRange s)
    (fits : hsize (encodedH1 s) ≤ room s) :
    execEncode { s with frameH1 := withLenInd s.frameH1 ind } =
      .next (encodeCommit (memWriteBytes s.dst s.wcur.toNat (encodedHeader s)) (hsize (encodedH1 s)) s) := by
  have byte1 : encodedH1 { s with frameH1 := withLenInd s.frameH1 ind } = encodedH1 s := withLenInd_withLenInd _ _ _
  have header : encodedHeader { s with frameH1 := withLenInd s.frameH1 ind } = encodedHeader s :=
    congrArg (encodeBytes s.frameH0 · s.frameLen s.key) byte1
  rw [execEncode_of_fits (s := { s with frameH1 := withLenInd s.frameH1 ind }) running inRange (byte1.symm ▸ fits), header,
    byte1, encodeCommit, byte1]
  rfl

/-- Settles O25. -/
theorem encodeOverwritesTheLengthIndicator : Obligations.EncodeOverwritesTheLengthIndicator := by
  intro s t running h clear ok
  obtain ⟨inRange, fits, rfl⟩ := encode_succeeded running h clear ok
  refine ⟨maskFlag_withLenInd _ _, lenIndField_withLenInd _ _, ?_, fun ind => execEncode_withLenInd ind running inRange fits⟩
  have two : 1 < (encodedHeader s).length := (encodedHeader_length s).symm ▸ hsize_pos (encodedH1 s)
  exact holdsAt_memWriteBytes s.dst s.wcur.toNat (encodedHeader s) 1 two

/-! ### DECODE -/

theorem holdsAt_keyBytes_of_lanes {m : Memory} {a : Nat} {key : Key}
    (lanes : ∀ k, k < 4 → memRead m (a + k) = some (keyLane key k)) : holdsAt m a (keyBytes key) :=
  fun k hk => (lanes k hk).trans (keyBytes_getElem? key hk).symm

/-- Settles O27. -/
theorem decodeParsesTheHeader : Obligations.DecodeParsesTheHeader := by
  intro s b0 b1 extended key running below valid whole h0 h1 length hext lanes
  have holds : holdsAt s.src s.rcur.toNat (wireBytes b0 b1 extended (carriedKey b1 key)) := by
    refine holdsAt_wireBytes.2 ⟨h0, h1, hext, ?_⟩
    unfold carriedKey
    split
    · rename_i masked
      rw [length]
      exact holdsAt_keyBytes_of_lanes (lanes masked)
    · exact holdsAt_nil _ _
  have found := readHeader_iff_holdsAt.2 ⟨whole, carriedKey_isSome b1 key, extended, length, rfl, holds⟩
  refine ⟨_, execDecode_of_header running ⟨below, valid⟩ found, ?_⟩
  rw [decodeCommit_eq]
  refine ⟨assembleLen_toNat length, fun masked => ?_, cursor_moved_toNat below whole, hsize_toNat b1, rfl⟩
  have carried : carriedKey b1 key = some key := if_pos masked
  rw [carried]
  exact ⟨rfl, rfl⟩

/-- Settles O28: `decodeShort` is that state. -/
theorem decodeShortOfInputCommitsNothing : Obligations.DecodeShortOfInputCommitsNothing :=
  fun _ running below valid short => execDecode_of_short running ⟨below, valid⟩ short

/-- What DECODE finds depends on the bytes that are there, wherever they stand. -/
theorem readHeader_of_same {m m' : Memory} {p p' avail : Nat} {found : HeaderRead}
    (same : ∀ j, j < avail → memRead m' (p' + j) = memRead m (p + j)) (h : readHeader m p avail = .ok found) :
    readHeader m' p' avail = .ok found := by
  cases found with
  | short =>
    rw [readHeader_short] at h ⊢
    by_cases few : avail < 2
    · exact .inl few
    · obtain few' | ⟨b0, b1, h0, h1, short⟩ := h
      · exact absurd few' few
      · exact .inr ⟨b0, b1, (same 0 (by omega)).trans h0, (same 1 (by omega)).trans h1, short⟩
  | header b0 b1 len key =>
    rw [readHeader_iff_holdsAt] at h ⊢
    obtain ⟨whole, masked, extended, length, spells, holds⟩ := h
    exact ⟨whole, masked, extended, length, spells,
      holdsAt_of_same ((wireBytes_length length masked).trans_le whole) same holds⟩

/-- A successful DECODE moves RCUR by the size of the header, and no further than SRC_LEN (R104). -/
theorem decodeCommit_rcur_toNat {s : State} {b1 : Byte} (b0 : Byte) (len : Word) (key : Option Key)
    (inRange : decodeInRange s) (whole : hsize b1 ≤ available s) :
    (decodeCommit b0 b1 len key s).rcur.toNat = s.rcur.toNat + hsize b1 := by
  rw [decodeCommit_eq]
  exact cursor_moved_toNat inRange.1 whole

/-- Settles O29: both states find the same at their read cursors. -/
theorem decodeDependsOnTheUnreadBytesAlone : Obligations.DecodeDependsOnTheUnreadBytesAlone := by
  intro s t u running runningU inRange inRangeU sameAvail same h
  have ends := (execDecode_of_running running inRange).symm.trans h
  match found : readHeader s.src s.rcur.toNat (available s) with
  | .error f => rw [found] at ends; cases ends
  | .ok read =>
    have foundU := readHeader_of_same same found
    rw [← sameAvail] at foundU
    rw [found] at ends
    cases read with
    | short =>
      cases ends
      refine ⟨_, execDecode_of_short runningU inRangeU (readHeader_short.1 foundU), rfl, rfl, ?_, fun ok => by cases ok⟩
      rw [decodeShort_rcur, decodeShort_rcur, Nat.sub_self, Nat.sub_self]
    | header b0 b1 len key =>
      cases ends
      obtain ⟨whole, masked, -⟩ := readHeader_iff_holdsAt.1 found
      refine ⟨_, execDecode_of_header runningU inRangeU foundU, ?_⟩
      rw [decodeCommit_rcur_toNat b0 len key inRange whole,
        decodeCommit_rcur_toNat b0 len key inRangeU (sameAvail.symm ▸ whole), Nat.add_sub_cancel_left,
        Nat.add_sub_cancel_left, decodeCommit_eq, decodeCommit_eq]
      refine ⟨rfl, rfl, rfl, fun _ => ⟨rfl, rfl, rfl, fun flag => ?_⟩⟩
      obtain ⟨k, rfl⟩ := Option.isSome_iff_exists.1 (masked.trans flag)
      rfl

end Sys2Proof.Machine
end

section
/-! The key while MASKF is clear (O32), and the bytes ENCODE writes for a frame that was decoded (O34). -/

namespace Sys2Proof.Machine

/-! ### The key is not read while MASKF is clear

None of a command's checks reads the key, so each command takes the same way whatever the key is. -/

/-- An unmasked header carries no key (R101). -/
theorem encodedHeader_of_unmasked {s : State} (key : Key) (unmasked : maskFlag s.frameH1 = false) :
    encodedHeader { s with key := key } = encodedHeader s := by
  have byte1 : ¬ maskFlag (encodedH1 s) = true := by
    rw [encodedH1, maskFlag_withLenInd, unmasked]
    exact Bool.false_ne_true
  simp only [encodedHeader, encodeBytes_eq_wireBytes]
  show wireBytes s.frameH0 (encodedH1 s) _ (carriedKey (encodedH1 s) key) = _
  rw [carriedKey, carriedKey, if_neg byte1, if_neg byte1]

theorem execEncode_of_unmasked {s : State} (key : Key) (unmasked : maskFlag s.frameH1 = false) :
    execEncode { s with key := key } = mapNext (fun t => { t with key := key }) (execEncode s) := by
  obtain ⟨halt, he⟩ | ⟨running, outside, he⟩ | ⟨running, inRange, short, he⟩ | ⟨running, inRange, fits, he⟩ :=
    execEncode_cases s <;> rw [he]
  · exact exec_of_halted (i := .encode) rfl halt
  · exact exec_of_rangeFails (i := .encode) running ((rangeFails_encode s).2 outside)
  · exact execEncode_of_short (s := { s with key := key }) running inRange short
  · rw [execEncode_of_fits (s := { s with key := key }) running inRange fits, encodedHeader_of_unmasked key unmasked]
    rfl

/-- MASK reads the key where MASKF is set, and only there (R120). -/
theorem maskSlice_of_unmasked {s : State} (buf : Buf) (key : Key) (unmasked : maskFlag s.frameH1 = false) :
    maskSlice buf { s with key := key } = mapNext (fun t => { t with key := key }) (maskSlice buf s) := by
  have limit : bufLimit buf { s with key := key } = bufLimit buf s := by cases buf <;> rfl
  have size : bufSize buf { s with key := key } = bufSize buf s := by cases buf <;> rfl
  have halt : halted { s with key := key } = halted s := rfl
  simp only [maskSlice, limit, size, halt, unmasked, Bool.false_eq_true, if_false]
  split_ifs <;> rfl

/-- What DECODE commits depends on the old key in the key alone, where it draws one (R106). -/
theorem decodeOutcome_key (found : Except Fault HeaderRead) (s : State) (key other : Key) :
    mapNext (fun t => { t with key := other }) (decodeOutcome found { s with key := key }) =
      mapNext (fun t => { t with key := other }) (decodeOutcome found s) := by
  match found with
  | .error f => rfl
  | .ok .short => rfl
  | .ok (.header b0 b1 len k) => cases k <;> rfl

theorem execDecode_key (s : State) (key other : Key) :
    mapNext (fun t => { t with key := other }) (execDecode { s with key := key }) =
      mapNext (fun t => { t with key := other }) (execDecode s) := by
  obtain ⟨halt, he⟩ | ⟨running, outside, he⟩ | ⟨running, inRange, he⟩ := execDecode_cases s <;> rw [he]
  · rw [show execDecode { s with key := key } = _ from exec_of_halted (i := .decode) rfl halt]
    rfl
  · rw [show execDecode { s with key := key } = _ from
      exec_of_rangeFails (i := .decode) running ((rangeFails_decode s).2 outside)]
    rfl
  · rw [execDecode_of_running (s := { s with key := key }) running inRange]
    exact decodeOutcome_key _ s key other

/-- Settles O32: DECODE does not read the key even while MASKF is set. -/
theorem keyIsNotReadWhileUnmasked : Obligations.KeyIsNotReadWhileUnmasked := by
  refine fun s key unmasked => ⟨execEncode_of_unmasked key unmasked, fun buf => ?_, execDecode_key s key⟩
  rw [exec_maskOf, exec_maskOf]
  exact maskSlice_of_unmasked buf key unmasked

/-! ### The shortest spelling is the only one with its indicator -/

/-- Big-endian digits are determined by the number they spell (R54). -/
theorem eq_of_beNat_eq {xs ys : List Byte} (length : xs.length = ys.length) (same : beNat xs = beNat ys) : xs = ys := by
  induction xs using List.reverseRecOn generalizing ys with
  | nil => exact (List.length_eq_zero_iff.1 length.symm).symm
  | append_singleton xs x ih =>
    obtain rfl | ⟨ys, y, rfl⟩ := List.eq_nil_or_concat' ys
    · simp at length
    · rw [beNat_append_singleton, beNat_append_singleton] at same
      have hx := x.isLt
      have hy := y.isLt
      have digit : x = y := BitVec.eq_of_toNat_eq (by omega)
      rw [ih (by simpa using length) (by omega), digit]

/-- The extended length that goes with the shortest indicator is the shortest one. -/
theorem extended_eq_extBytes {extended : List Byte} {len : Word} (length : extended.length = ext (lenind len))
    (spells : assembleLen (lenind len) extended = len) : extended = extBytes len := by
  have length' := length.trans (extBytes_length len).symm
  have spelled := congrArg BitVec.toNat spells
  rw [assembleLen_toNat length] at spelled
  obtain ⟨-, -, -, empty, size⟩ | ⟨long, -, ind, -⟩ | ⟨long, ind, -⟩ := lenind_cases len
  · rw [empty]
    exact List.length_eq_zero_iff.1 (length.trans size)
  · rw [ind, if_neg (by decide)] at spelled
    exact eq_of_beNat_eq length' (spelled.trans (beNat_extBytes long).symm)
  · rw [ind, if_neg (by decide)] at spelled
    exact eq_of_beNat_eq length' (spelled.trans (beNat_extBytes (by omega)).symm)

/-- Indicators that announce the same number of bytes, and some, are the same (R73). -/
theorem eq_of_ext_eq {i j : BitVec 7} (announces : ext i ≠ 0) (same : ext i = ext j) : i = j := by
  unfold ext at announces same
  split_ifs at announces same <;> simp_all

/-- A length of at most 125 is its own indicator (R76). -/
theorem lenind_of_small {len : Word} {ind : BitVec 7} (small : ind.toNat ≤ 125) (value : len.toNat = ind.toNat) :
    lenind len = ind := by
  obtain ⟨-, -, hind, -⟩ | ⟨long, -⟩ | ⟨long, -⟩ := lenind_cases len
  · exact BitVec.eq_of_toNat_eq (hind.trans value)
  · omega
  · omega

/-- A spelling with an indicator other than the shortest has more extended bytes. -/
theorem ext_lenind_lt {ind : BitVec 7} {extended : List Byte} {len : Word} (length : extended.length = ext ind)
    (spells : assembleLen ind extended = len) (longer : ind ≠ lenind len) : ext (lenind len) < ext ind := by
  subst spells
  refine Nat.lt_of_le_of_ne (ext_lenind_le length) fun same => longer ?_
  have value := assembleLen_toNat length
  by_cases small : ind.toNat ≤ 125
  · rw [if_pos small] at value
    exact (lenind_of_small small value).symm
  · refine eq_of_ext_eq ?_ same.symm
    obtain ⟨-, size⟩ | ⟨-, size⟩ | ⟨small', -⟩ := ext_cases ind <;> omega

/-! ### Encoding a decoded frame -/

theorem hsize_lt_of_ext_lt {b1 b1' : Byte} (flag : maskFlag b1 = maskFlag b1')
    (shorter : ext (lenIndField b1) < ext (lenIndField b1')) : hsize b1 < hsize b1' := by
  unfold hsize
  rw [flag]
  omega

theorem carriedKey_getD {b1 : Byte} {key : Option Key} (masked : key.isSome = maskFlag b1) (other : Key) :
    carriedKey b1 (key.getD other) = key := by
  unfold carriedKey
  rw [← masked]
  cases key <;> rfl

/-- The header ENCODE writes for a frame that was decoded: the decoded bytes with the length spelled again. -/
theorem encodedHeader_of_decoded {s r : State} {b0 b1 : Byte} {len : Word} {key : Option Key}
    (masked : key.isSome = maskFlag b1) (frame : sameFrame (decodeCommit b0 b1 len key s) r) :
    encodedH1 r = withLenInd b1 (lenind len) ∧
      encodedHeader r = wireBytes b0 (withLenInd b1 (lenind len)) (extBytes len) key := by
  rw [decodeCommit_eq] at frame
  obtain ⟨byte0, flag, frameLen, frameKey⟩ := frame
  change r.frameH0 = b0 at byte0
  change maskFlag r.frameH1 = maskFlag b1 at flag
  change r.frameLen = len at frameLen
  change r.key = key.getD _ at frameKey
  have byte1 : encodedH1 r = withLenInd b1 (lenind len) := by rw [encodedH1, withLenInd, flag, frameLen, withLenInd]
  have carried : carriedKey (withLenInd b1 (lenind len)) r.key = key := by
    rw [frameKey]
    exact carriedKey_getD (by rw [maskFlag_withLenInd, masked]) _
  rw [encodedHeader, encodeBytes_eq_wireBytes, byte0, byte1, frameLen, carried]
  exact ⟨rfl, rfl⟩

/-- Settles O34: only the spelling of the length can differ, and the shortest has one indicator and one extended length. -/
theorem encodeOfDecodedFrameIsMinimal : Obligations.EncodeOfDecodedFrameIsMinimal := by
  intro s t r u running h clear ok runningR frame hr clearU okU
  obtain ⟨b0, b1, len, key, found, rfl⟩ := decode_succeeded running h clear ok
  obtain ⟨-, -, rfl⟩ := encode_succeeded runningR hr clearU okU
  obtain ⟨-, masked, extended, length, spells, holds⟩ := readHeader_iff_holdsAt.1 found
  obtain ⟨byte1, header⟩ := encodedHeader_of_decoded masked frame
  rw [byte1, header, decodeCommit_eq]
  have written := holdsAt_memWriteBytes r.dst r.wcur.toNat (wireBytes b0 (withLenInd b1 (lenind len)) (extBytes len) key)
  refine ⟨?_, ⟨fun same => ?_, fun shortest => ?_⟩, fun longer => ?_⟩
  · rw [encodeCommit_frameH1, byte1]
    exact lenIndField_withLenInd _ _
  · obtain ⟨-, same⟩ := same
    rw [encodeCommit_resWritten, hsize_toNat] at same
    have same1 := same 1 (hsize_pos _)
    obtain ⟨-, written1, -⟩ := holdsAt_wireBytes.1 written
    obtain ⟨-, read1, -⟩ := holdsAt_wireBytes.1 holds
    have kept := Option.some.inj (written1.symm.trans (same1.trans read1))
    show lenIndField b1 = lenind len
    rw [← kept, lenIndField_withLenInd]
  · change lenIndField b1 = lenind len at shortest
    have kept : withLenInd b1 (lenind len) = b1 := by rw [← shortest, withLenInd_lenIndField]
    have spelled : extended = extBytes len :=
      extended_eq_extBytes (length.trans (congrArg ext shortest)) (by rw [← shortest, spells])
    rw [← spelled, kept] at written
    rw [← spelled, kept]
    refine ⟨rfl, fun j hj => ?_⟩
    rw [encodeCommit_resWritten, hsize_toNat, ← wireBytes_length length masked] at hj
    exact (written j hj).trans (holds j hj).symm
  · show (BitVec.ofNat 64 (hsize (withLenInd b1 (lenind len)))).toNat < (BitVec.ofNat 64 (hsize b1)).toNat
    rw [hsize_toNat, hsize_toNat]
    refine hsize_lt_of_ext_lt (maskFlag_withLenInd _ _) ?_
    rw [lenIndField_withLenInd]
    exact ext_lenind_lt length spells longer

end Sys2Proof.Machine
end

section
/-! ENCODE as its chain of APPENDs (O35) and DECODE as its chain of CONSUMEs (O36): a chain does at once what its parts do
one after the other (R110, R134). -/

namespace Sys2Proof.Machine

/-! ### ENCODE -/

theorem append_of_outside {w c : Nat} (d : Memory) (bs : List Byte) (outside : c < w) : append d w c bs = .outside :=
  if_pos outside

theorem append_of_inside {w c : Nat} (d : Memory) (bs : List Byte) (inside : w ≤ c) :
    append d w c bs = if bs.length ≤ c - w then .ok (memWriteBytes d w bs, w + bs.length) else .short :=
  if_neg (Nat.not_lt.2 inside)

/-- A chain of APPENDs is one APPEND of all its bytes: it runs short where they do not all fit, at whichever part. -/
theorem appendChain_eq_append_flatten {w c : Nat} (d : Memory) (parts : List (List Byte)) (inside : w ≤ c) :
    appendChain d w c parts = append d w c parts.flatten := by
  induction parts generalizing d w with
  | nil => simp [appendChain, append_of_inside d _ inside, memWriteBytes]
  | cons part parts ih =>
    rw [append_of_inside d _ inside, List.flatten_cons, List.length_append, appendChain, append_of_inside d _ inside]
    by_cases fits : part.length ≤ c - w
    · have inside' : w + part.length ≤ c := by omega
      simp only [if_pos fits, ih _ inside', append_of_inside _ _ inside', memWriteBytes_append]
      have same : parts.flatten.length ≤ c - (w + part.length) ↔ part.length + parts.flatten.length ≤ c - w := by omega
      simp only [same, Nat.add_assoc]
    · rw [if_neg fits, if_neg (by omega)]

/-- The parts ENCODE appends (R110). -/
def encodeParts (s : State) : List (List Byte) :=
  [[s.frameH0, encodedH1 s], extBytes s.frameLen] ++ (if maskFlag (encodedH1 s) then [keyBytes s.key] else [])

theorem flatten_encodeParts (s : State) : (encodeParts s).flatten = encodedHeader s := by
  unfold encodeParts encodedHeader encodeBytes
  cases maskFlag (encodedH1 s) <;> simp

theorem appendChain_encodeParts_of_outside {s : State} (outside : s.cap.toNat < s.wcur.toNat) :
    appendChain s.dst s.wcur.toNat s.cap.toNat (encodeParts s) = .outside := by
  simp only [encodeParts, List.cons_append, appendChain, append_of_outside _ _ outside]

/-- ENCODE's chain runs to its end exactly where there is room for the whole header (R110). -/
theorem appendChain_encodeParts {s : State} (below : s.wcur.toNat ≤ s.cap.toNat) :
    appendChain s.dst s.wcur.toNat s.cap.toNat (encodeParts s) =
      if hsize (encodedH1 s) ≤ room s then
        .ok (memWriteBytes s.dst s.wcur.toNat (encodedHeader s), s.wcur.toNat + hsize (encodedH1 s))
      else .short := by
  rw [appendChain_eq_append_flatten _ _ below, flatten_encodeParts, append_of_inside _ _ below, encodedHeader_length]
  rfl

/-- How ENCODE ends, from what its chain answers. -/
def appendsOutcome (s : State) : Primitive (Memory × Nat) → Host.Outcome State Fault Refusal
  | .outside => .next (raiseFault faultRange s)
  | .short => .next (encodeFail s)
  | .ok (d, w) => .next (encodeCommit d (w - s.wcur.toNat) s)

theorem encodeByAppends_of_running {s : State} (running : s.fault = 0) (valid : s.cap.toNat ≤ s.dstMax.toNat) :
    encodeByAppends s = appendsOutcome s (appendChain s.dst s.wcur.toNat s.cap.toNat (encodeParts s)) := by
  rw [encodeByAppends, (halted_false_iff s).2 running, if_neg Bool.false_ne_true, if_neg (Nat.not_lt.2 valid)]
  rfl

/-- Settles O35: in range the chain is one APPEND of the whole header; a WCUR above CAP is caught by the first part. -/
theorem encodeIsItsChainOfAppends : Obligations.EncodeIsItsChainOfAppends := by
  intro s
  show execEncode s = encodeByAppends s
  obtain ⟨halt, he⟩ | ⟨running, outside, he⟩ | ⟨running, ⟨below, valid⟩, short, he⟩ | ⟨running, ⟨below, valid⟩, fits, he⟩ :=
    execEncode_cases s <;> rw [he]
  · rw [encodeByAppends, if_pos ((halted_iff s).2 halt)]
  · by_cases valid : s.cap.toNat ≤ s.dstMax.toNat
    · have above : s.cap.toNat < s.wcur.toNat := Nat.lt_of_not_le fun below => outside ⟨below, valid⟩
      rw [encodeByAppends_of_running running valid, appendChain_encodeParts_of_outside above, appendsOutcome]
    · rw [encodeByAppends, (halted_false_iff s).2 running, if_neg Bool.false_ne_true, if_pos (Nat.lt_of_not_le valid)]
  · rw [encodeByAppends_of_running running valid, appendChain_encodeParts below, if_neg (Nat.not_le.2 short), appendsOutcome]
  · rw [encodeByAppends_of_running running valid, appendChain_encodeParts below, if_pos fits, appendsOutcome,
      Nat.add_sub_cancel_left]

/-! ### DECODE -/

theorem consume_of_outside {k r l : Nat} (m : Memory) (outside : l < r) : consume k m r l = .ok .outside :=
  if_pos outside

theorem consume_of_short {k r l : Nat} (m : Memory) (inside : r ≤ l) (short : l - r < k) :
    consume k m r l = .ok .short := by
  rw [consume, if_neg (Nat.not_lt.2 inside), if_neg (Nat.not_le.2 short)]

/-- A CONSUME answers the bytes that stand at its cursor (R131). -/
theorem consume_of_holdsAt {m : Memory} {r l : Nat} {bs : List Byte} (inside : r ≤ l) (enough : bs.length ≤ l - r)
    (holds : holdsAt m r bs) : consume bs.length m r l = .ok (.ok (bs, r + bs.length)) := by
  rw [consume_of_enough m inside enough, memReadBytes_ok.2 ⟨rfl, holds⟩]
  rfl

theorem consumeHeader_of_two {m : Memory} {r l : Nat} {b0 b1 : Byte} (inside : r ≤ l) (enough : 2 ≤ l - r)
    (h0 : memRead m r = some b0) (h1 : memRead m (r + 1) = some b1) :
    consumeHeader m r l = consumeRest m (r + 2) l b0 b1 := by
  have holds : holdsAt m r [b0, b1] := by
    rw [holdsAt_cons, holdsAt_cons]
    exact ⟨h0, h1, holdsAt_nil _ _⟩
  have read : consume 2 m r l = .ok (.ok ([b0, b1], r + 2)) := consume_of_holdsAt (bs := [b0, b1]) inside enough holds
  rw [consumeHeader, read]

/-- The rest of the chain after the extended length is consumed. -/
theorem consumeRest_of_holdsAt {m : Memory} {r l : Nat} {b1 : Byte} {extended : List Byte} (b0 : Byte) (inside : r ≤ l)
    (length : extended.length = ext (lenIndField b1)) (enough : ext (lenIndField b1) ≤ l - r) (hext : holdsAt m r extended) :
    consumeRest m r l b0 b1 =
      if maskFlag b1 then
        consumeKey m (r + ext (lenIndField b1)) l b0 b1 (assembleLen (lenIndField b1) extended)
      else .ok (.ok (.header b0 b1 (assembleLen (lenIndField b1) extended) none)) := by
  rw [← length] at enough
  have read := consume_of_holdsAt inside enough hext
  rw [length] at read
  rw [consumeRest, read]

theorem consumeKey_of_holdsAt {m : Memory} {r l : Nat} {key : Key} (b0 b1 : Byte) (len : Word) (inside : r ≤ l)
    (enough : 4 ≤ l - r) (holds : holdsAt m r (keyBytes key)) :
    consumeKey m r l b0 b1 len = .ok (.ok (.header b0 b1 len (some key))) := by
  have read := consume_of_holdsAt (bs := keyBytes key) inside enough holds
  rw [keyBytes_length] at read
  rw [consumeKey, read]
  rfl

theorem memWritten_of_inside {m : Memory} {a n a' n' : Nat} (written : memWritten m a n) (h : a ≤ a')
    (h' : a' + n' ≤ a + n) : memWritten m a' n' :=
  fun x hx hx' => written x (h.trans hx) (hx'.trans_le h')

theorem holdsAt_of_written {m : Memory} {a n : Nat} (written : memWritten m a n) :
    ∃ bs, bs.length = n ∧ holdsAt m a bs := by
  obtain ⟨bs, read⟩ := memReadBytes_of_written .src written
  exact ⟨bs, memReadBytes_ok.1 read⟩

theorem holdsAt_keyBytes_of_written {m : Memory} {a : Nat} (written : memWritten m a 4) :
    ∃ key, holdsAt m a (keyBytes key) := by
  obtain ⟨bs, length, holds⟩ := holdsAt_of_written written
  match bs, length, holds with
  | [k0, k1, k2, k3], _, holds => exact ⟨⟨k0, k1, k2, k3⟩, holds⟩

/-- Where the header is longer than what is there, the extended length or the key runs short. -/
theorem consumeRest_of_short {m : Memory} {r l : Nat} {b1 : Byte} (b0 : Byte) (inside : r + 2 ≤ l)
    (written : memWritten m r (l - r)) (short : l - r < hsize b1) : consumeRest m (r + 2) l b0 b1 = .ok .short := by
  by_cases few : l - (r + 2) < ext (lenIndField b1)
  · rw [consumeRest, consume_of_short m inside few]
  · have enough := Nat.le_of_not_lt few
    obtain ⟨extended, length, hext⟩ := holdsAt_of_written
      (memWritten_of_inside (a' := r + 2) (n' := ext (lenIndField b1)) written (by omega) (by omega))
    have masked : maskFlag b1 = true := by
      by_contra unmasked
      rw [hsize, if_neg unmasked] at short
      omega
    rw [hsize, if_pos masked] at short
    rw [consumeRest_of_holdsAt b0 inside length enough hext, if_pos masked, consumeKey,
      consume_of_short m (by omega) (by omega)]

/-- Where the whole header is there, the chain ends with what DECODE reads. -/
theorem consumeRest_of_whole {m : Memory} {r l : Nat} {b1 : Byte} (b0 : Byte) (inside : r ≤ l)
    (written : memWritten m r (l - r)) (whole : hsize b1 ≤ l - r) :
    ∃ len key, readRest m r b0 b1 = .ok (.header b0 b1 len key) ∧
      consumeRest m (r + 2) l b0 b1 = .ok (.ok (.header b0 b1 len key)) := by
  have size : hsize b1 = 2 + ext (lenIndField b1) + 4 * (if maskFlag b1 then 1 else 0) := rfl
  obtain ⟨extended, length, hext⟩ := holdsAt_of_written
    (memWritten_of_inside (a' := r + 2) (n' := ext (lenIndField b1)) written (by omega) (by omega))
  rw [readRest, memReadBytes_ok.2 ⟨length, hext⟩, consumeRest_of_holdsAt b0 (by omega) length (by omega) hext]
  refine ⟨assembleLen (lenIndField b1) extended, ?_⟩
  by_cases masked : maskFlag b1 = true
  · rw [if_pos masked] at size
    obtain ⟨key, hkey⟩ := holdsAt_keyBytes_of_written
      (memWritten_of_inside (a' := r + 2 + ext (lenIndField b1)) (n' := 4) written (by omega) (by omega))
    refine ⟨some key, ?_, ?_⟩
    · simp only [if_pos masked, readKey_ok.2 hkey]
    · rw [if_pos masked, consumeKey_of_holdsAt b0 b1 _ (by omega) (by omega) hkey]
  · exact ⟨none, if_neg masked, if_neg masked⟩

/-- The chain finds what DECODE finds, where the unread bytes hold values. -/
theorem consumeHeader_of_written {m : Memory} {r l : Nat} (inside : r ≤ l) (written : memWritten m r (l - r)) :
    (readHeader m r (l - r) = .ok .short ∧ consumeHeader m r l = .ok .short) ∨
    ∃ b0 b1 len key, readHeader m r (l - r) = .ok (.header b0 b1 len key) ∧
      consumeHeader m r l = .ok (.ok (.header b0 b1 len key)) := by
  by_cases few : l - r < 2
  · exact .inl ⟨readHeader_short.2 (.inl few), by rw [consumeHeader, consume_of_short m inside few]⟩
  · have enough := Nat.le_of_not_lt few
    obtain ⟨b0, h0⟩ := Option.ne_none_iff_exists'.1 (written r (by omega) (by omega))
    obtain ⟨b1, h1⟩ := Option.ne_none_iff_exists'.1 (written (r + 1) (by omega) (by omega))
    rw [consumeHeader_of_two inside enough h0 h1]
    by_cases whole : hsize b1 ≤ l - r
    · obtain ⟨len, key, read, consumed⟩ := consumeRest_of_whole b0 inside written whole
      exact .inr ⟨b0, b1, len, key, (readHeader_of_two h0 h1 whole).trans read, consumed⟩
    · have short := Nat.lt_of_not_le whole
      exact .inl ⟨readHeader_short.2 (.inr ⟨b0, b1, h0, h1, short⟩), consumeRest_of_short b0 (by omega) written short⟩

/-- Settles O36: in range the chain finds what DECODE finds; an RCUR above SRC_LEN is caught by the first CONSUME. -/
theorem decodeIsItsChainOfConsumes : Obligations.DecodeIsItsChainOfConsumes := by
  intro s written
  show execDecode s = decodeByConsumes s
  obtain ⟨halt, he⟩ | ⟨running, outside, he⟩ | ⟨running, ⟨below, valid⟩, he⟩ := execDecode_cases s <;> rw [he]
  · rw [decodeByConsumes, if_pos ((halted_iff s).2 halt)]
  · rw [decodeByConsumes, (halted_false_iff s).2 running, if_neg Bool.false_ne_true]
    by_cases valid : s.srcLen.toNat ≤ s.srcMax.toNat
    · have above : s.srcLen.toNat < s.rcur.toNat := Nat.lt_of_not_le fun below => outside ⟨below, valid⟩
      rw [if_neg (Nat.not_lt.2 valid), consumeHeader, consume_of_outside _ above]
    · rw [if_pos (Nat.lt_of_not_le valid)]
  · rw [decodeByConsumes, (halted_false_iff s).2 running, if_neg Bool.false_ne_true, if_neg (Nat.not_lt.2 valid)]
    obtain ⟨read, consumed⟩ | ⟨b0, b1, len, key, read, consumed⟩ := consumeHeader_of_written below written <;>
      rw [available, read, consumed]
    rfl

end Sys2Proof.Machine
end

section
/-! MASK. In range it completes without a byte touched while MASKF is clear (O40), and with its slice XORed while MASKF is set
(O39). Masking twice (O41) and in parts (O42, O43) follow from three laws of the rolling XOR: it is its own inverse, it splits
at the cumulative offset, and the offset counts mod 4 only (O44). -/

namespace Sys2Proof.Machine

/-! ### How MASK completes -/

/-- The state MASK leaves where MASKF is set and the slice holds these bytes (R120). -/
def maskedState (buf : Buf) (bs : List Byte) (s : State) : State :=
  maskCommit (setBufMem buf (memWriteBytes (bufMem buf s) s.mStart.toNat (xorSlice s.key s.mOff.toNat bs)) s)

@[simp] theorem bufMem_maskCommit (buf : Buf) (s : State) : bufMem buf (maskCommit s) = bufMem buf s := by
  cases buf <;> rfl

@[simp] theorem bufMem_setBufMem (buf : Buf) (m : Memory) (s : State) : bufMem buf (setBufMem buf m s) = m := by
  cases buf <;> rfl

@[simp] theorem bufMem_maskedState (buf : Buf) (bs : List Byte) (s : State) :
    bufMem buf (maskedState buf bs s) =
      memWriteBytes (bufMem buf s) s.mStart.toNat (xorSlice s.key s.mOff.toNat bs) := by
  rw [maskedState, bufMem_maskCommit, bufMem_setBufMem]

/-- A MASK that leaves the block running was in range, and touched its slice where MASKF was set. -/
theorem exec_maskOf_completed {buf : Buf} {s t : State} (h : exec (maskOf buf) s = .next t) (ok : t.fault = 0) :
    s.fault = 0 ∧ maskInRange buf s ∧
      ((maskFlag s.frameH1 = false ∧ t = maskCommit s) ∨
        (maskFlag s.frameH1 = true ∧ ∃ bs, bs.length = s.mN.toNat ∧ holdsAt (bufMem buf s) s.mStart.toNat bs ∧
          t = maskedState buf bs s)) := by
  rw [exec_maskOf] at h
  obtain ⟨halt, he⟩ | ⟨running, -, he⟩ | ⟨running, inRange, unmasked, he⟩ | ⟨-, -, -, f, -, he⟩ |
    ⟨running, inRange, masked, bs, length, holds, he⟩ := maskSlice_cases buf s <;> rw [he] at h <;> cases h
  · exact absurd ok halt
  · exact absurd ok (raiseFault_faultRange_halts running)
  · exact ⟨running, inRange, .inl ⟨unmasked, rfl⟩⟩
  · exact ⟨running, inRange, .inr ⟨masked, bs, length, holds, rfl⟩⟩

/-- The range check of a MASK in range passes (R146). -/
theorem sliceOutside_of_inRange {buf : Buf} {s : State} (inRange : maskInRange buf s) :
    sliceOutside s.mStart s.mN (bufLimit buf s) (bufSize buf s) = false := by
  obtain ⟨below, valid⟩ := inRange
  rw [Bool.eq_false_iff, ne_eq, sliceOutside_iff]
  omega

theorem exec_maskOf_of_unmasked {buf : Buf} {s : State} (running : s.fault = 0) (inRange : maskInRange buf s)
    (unmasked : maskFlag s.frameH1 = false) : exec (maskOf buf) s = .next (maskCommit s) := by
  simp only [exec_maskOf, maskSlice, (halted_false_iff s).2 running, sliceOutside_of_inRange inRange, unmasked,
    if_neg Bool.false_ne_true]

theorem exec_maskOf_of_masked {buf : Buf} {s : State} {bs : List Byte} (running : s.fault = 0)
    (inRange : maskInRange buf s) (masked : maskFlag s.frameH1 = true) (length : bs.length = s.mN.toNat)
    (holds : holdsAt (bufMem buf s) s.mStart.toNat bs) : exec (maskOf buf) s = .next (maskedState buf bs s) := by
  simp only [exec_maskOf, maskSlice, (halted_false_iff s).2 running, sliceOutside_of_inRange inRange, if_pos masked,
    if_neg Bool.false_ne_true, memReadBytes_ok.2 ⟨length, holds⟩, maskedState]

/-- Settles O40: with MASKF clear a MASK in range goes straight to its commit. -/
theorem maskWithoutTheFlagTouchesNoByte : Obligations.MaskWithoutTheFlagTouchesNoByte :=
  fun _ _ running inRange unmasked => exec_maskOf_of_unmasked running inRange unmasked

/-- Settles O39: the XORed slice is written over the slice, and byte i of it has its own key lane. -/
theorem maskXorsTheSlice : Obligations.MaskXorsTheSlice := by
  intro buf s running inRange masked written
  obtain ⟨bs, length, holds⟩ := holdsAt_of_written written
  refine ⟨memWriteBytes (bufMem buf s) s.mStart.toNat (xorSlice s.key s.mOff.toNat bs), ?_, fun i b hi hb => ?_, ?_⟩
  · rw [exec_maskOf_of_masked running inRange masked length holds]
    cases buf <;> rfl
  · rw [← length] at hi
    rw [holdsAt_memWriteBytes _ _ _ i (by rwa [xorSlice_length]), xorSlice_getElem?, ← holds i hi, hb]
    rfl
  · exact sameOutside_memWriteBytes _ _ _ _ (by rw [xorSlice_length, length])

/-! ### The bytes a MASK leaves, with MASKF set or clear -/

/-- What MASK makes of the bytes of its slice (R120): XORed with the rolling key where MASKF is set, and as they are where it
is clear. -/
def maskBytes (masked : Bool) (key : Key) (off : Nat) (bs : List Byte) : List Byte :=
  if masked then xorSlice key off bs else bs

@[simp] theorem maskBytes_length (masked : Bool) (key : Key) (off : Nat) (bs : List Byte) :
    (maskBytes masked key off bs).length = bs.length := by
  cases masked with
  | false => rfl
  | true => exact xorSlice_length key off bs

theorem maskBytes_append (masked : Bool) (key : Key) (off : Nat) (xs ys : List Byte) :
    maskBytes masked key off (xs ++ ys) = maskBytes masked key off xs ++ maskBytes masked key (off + xs.length) ys := by
  cases masked with
  | false => rfl
  | true => exact xorSlice_append key off xs ys

theorem maskBytes_congr (masked : Bool) (key : Key) {off off' : Nat} (bs : List Byte) (same : off % 4 = off' % 4) :
    maskBytes masked key off bs = maskBytes masked key off' bs := by
  cases masked with
  | false => rfl
  | true => exact xorSlice_congr key off off' bs same

/-- A MASK in range of a slice that holds values completes and leaves the masked bytes there. -/
theorem exec_maskOf_of_holdsAt {buf : Buf} {s : State} {bs : List Byte} (running : s.fault = 0)
    (inRange : maskInRange buf s) (length : s.mN.toNat = bs.length) (holds : holdsAt (bufMem buf s) s.mStart.toNat bs) :
    ∃ t, exec (maskOf buf) s = .next t ∧
      holdsAt (bufMem buf t) s.mStart.toNat (maskBytes (maskFlag s.frameH1) s.key s.mOff.toNat bs) := by
  cases masked : maskFlag s.frameH1 with
  | false =>
    refine ⟨_, exec_maskOf_of_unmasked running inRange masked, ?_⟩
    rwa [bufMem_maskCommit]
  | true =>
    refine ⟨_, exec_maskOf_of_masked running inRange masked length.symm holds, ?_⟩
    rw [bufMem_maskedState]
    exact holdsAt_memWriteBytes _ _ _

/-! ### Masking twice -/

/-- Two buffers that hold the same bytes from an address up read the same there. -/
theorem memRead_eq_of_holdsAt {m m' : Memory} {a x : Nat} {bs : List Byte} (holds : holdsAt m a bs)
    (holds' : holdsAt m' a bs) (h : a ≤ x) (h' : x < a + bs.length) : memRead m' x = memRead m x := by
  obtain ⟨j, rfl⟩ := Nat.exists_eq_add_of_le h
  have hj := Nat.lt_of_add_lt_add_left h'
  rw [holds j hj, holds' j hj]

/-- Settles O41: with MASKF set the second XOR gives the bytes of the first slice back; with MASKF clear neither command
touches them. -/
theorem maskTwiceRestoresTheSlice : Obligations.MaskTwiceRestoresTheSlice := by
  intro buf s t u _ first ok running inRange start size offset flag key kept
  obtain ⟨-, -, ⟨unmasked, rfl⟩ | ⟨masked, bs, length, holds, rfl⟩⟩ := exec_maskOf_completed first ok
  · refine ⟨_, exec_maskOf_of_unmasked running inRange (flag.trans unmasked), fun x h h' => ?_⟩
    rw [bufMem_maskCommit, kept x h h', bufMem_maskCommit]
  · have between : holdsAt (bufMem buf u) u.mStart.toNat (xorSlice s.key s.mOff.toNat bs) := by
      rw [bufMem_maskedState] at kept
      rw [start]
      refine holdsAt_of_same (n := s.mN.toNat) (by rw [xorSlice_length, length]) (fun j hj => ?_)
        (holdsAt_memWriteBytes (bufMem buf s) s.mStart.toNat _)
      exact kept _ (Nat.le_add_right _ _) (Nat.add_lt_add_left hj _)
    refine ⟨_, exec_maskOf_of_masked running inRange (flag.trans masked) (by rw [xorSlice_length, length, size]) between,
      fun x h h' => ?_⟩
    rw [bufMem_maskedState, start, key, offset, xorSlice_xorSlice]
    exact memRead_eq_of_holdsAt holds (holdsAt_memWriteBytes _ _ _) h (by rwa [length])

/-! ### Masking in parts -/

/-- A payload offset past 2^64 has the lane of the sum over the integers (R124), 4 dividing 2^64. -/
theorem toNat_add_mod_four (off n : Word) : (off + n).toNat % 4 = (off.toNat + n.toNat) % 4 := by
  rw [BitVec.toNat_add]
  omega

theorem toNat_add_ofNat_mod_four (off : Word) (i : Nat) : (off + BitVec.ofNat 64 i).toNat % 4 = (off.toNat + i) % 4 := by
  rw [toNat_add_mod_four, BitVec.toNat_ofNat]
  omega

/-- Bytes that stand past a masked slice stand there still. -/
theorem holdsAt_past_maskedState {buf : Buf} {s : State} {xs ys : List Byte}
    (holds : holdsAt (bufMem buf s) (s.mStart.toNat + xs.length) ys) :
    holdsAt (bufMem buf (maskedState buf xs s)) (s.mStart.toNat + xs.length) ys := by
  rw [bufMem_maskedState]
  exact holdsAt_of_same (Nat.le_refl _)
    (fun _ _ => sameOutside_memWriteBytes _ _ _ _ (xorSlice_length _ _ xs) _ (.inr (Nat.le_add_right _ _))) holds

/-- The operands of a MASK command set (R29). -/
def withSlice (start n off : Word) (s : State) : State :=
  { s with mStart := start, mN := n, mOff := off }

@[simp] theorem bufMem_withSlice (buf : Buf) (start n off : Word) (s : State) :
    bufMem buf (withSlice start n off s) = bufMem buf s := by
  cases buf <;> rfl

/-- A MASK with other operands set is in range where their slice is, its limits being those of `s`. -/
theorem maskInRange_withSlice {buf : Buf} {start n off : Word} {s : State} :
    maskInRange buf (withSlice start n off s) ↔
      start.toNat + n.toNat ≤ (bufLimit buf s).toNat ∧ (bufLimit buf s).toNat ≤ (bufSize buf s).toNat := by
  cases buf <;> rfl

@[simp] theorem bufLimit_withSlice (buf : Buf) (start n off : Word) (s : State) :
    bufLimit buf (withSlice start n off s) = bufLimit buf s := by
  cases buf <;> rfl

@[simp] theorem bufSize_withSlice (buf : Buf) (start n off : Word) (s : State) :
    bufSize buf (withSlice start n off s) = bufSize buf s := by
  cases buf <;> rfl

@[simp] theorem withSlice_mStart (start n off : Word) (s : State) : (withSlice start n off s).mStart = start := rfl
@[simp] theorem withSlice_mOff (start n off : Word) (s : State) : (withSlice start n off s).mOff = off := rfl
@[simp] theorem withSlice_key (start n off : Word) (s : State) : (withSlice start n off s).key = s.key := rfl
@[simp] theorem withSlice_frameH1 (start n off : Word) (s : State) : (withSlice start n off s).frameH1 = s.frameH1 := rfl
@[simp] theorem withSlice_fault (start n off : Word) (s : State) : (withSlice start n off s).fault = s.fault := rfl

/-- No instruction moves a buffer's limit or changes its size (O52). -/
theorem limits_of_exec {i : Instr} {s t : State} (h : exec i s = .next t) (buf : Buf) :
    bufLimit buf t = bufLimit buf s ∧ bufSize buf t = bufSize buf s := by
  obtain ⟨⟨srcLen, cap, -⟩, ⟨srcMax, dstMax, -⟩, -⟩ := instructionsWriteOnlyTheirRegisters i s t h
  cases buf with
  | src => exact ⟨srcLen, srcMax⟩
  | dst => exact ⟨cap, dstMax⟩

@[simp] theorem maskedState_fault (buf : Buf) (bs : List Byte) (s : State) : (maskedState buf bs s).fault = s.fault := by
  cases buf <;> rfl

@[simp] theorem maskedState_frameH1 (buf : Buf) (bs : List Byte) (s : State) : (maskedState buf bs s).frameH1 = s.frameH1 := by
  cases buf <;> rfl

@[simp] theorem maskedState_key (buf : Buf) (bs : List Byte) (s : State) : (maskedState buf bs s).key = s.key := by
  cases buf <;> rfl

theorem exists_append_of_length_eq_add {bs : List Byte} {m n : Nat} (length : bs.length = m + n) :
    ∃ xs ys, bs = xs ++ ys ∧ xs.length = m ∧ ys.length = n := by
  refine ⟨bs.take m, bs.drop m, (List.take_append_drop m bs).symm, ?_, ?_⟩
  · rw [List.length_take]
    omega
  · rw [List.length_drop]
    omega

/-- In the range of a whole slice its two parts are in range too, and neither sum of their operands wraps. -/
theorem maskInRange_parts {buf : Buf} {s : State} {a n1 n2 off : Word} (noWrap : n1.toNat + n2.toNat < 2 ^ 64)
    (whole : maskInRange buf (withSlice a (n1 + n2) off s)) :
    (n1 + n2).toNat = n1.toNat + n2.toNat ∧ (a + n1).toNat = a.toNat + n1.toNat ∧
      maskInRange buf (withSlice a n1 off s) ∧
      ∀ t, exec (maskOf buf) (withSlice a n1 off s) = .next t → maskInRange buf (withSlice (a + n1) n2 (off + n1) t) := by
  obtain ⟨below, valid⟩ := maskInRange_withSlice.1 whole
  have size : (n1 + n2).toNat = n1.toNat + n2.toNat := by rw [BitVec.toNat_add, Nat.mod_eq_of_lt noWrap]
  have start : (a + n1).toNat = a.toNat + n1.toNat := by
    have := (bufLimit buf s).isLt
    rw [BitVec.toNat_add, Nat.mod_eq_of_lt (by omega)]
  refine ⟨size, start, maskInRange_withSlice.2 ⟨by omega, valid⟩, fun t first => ?_⟩
  obtain ⟨limitKept, sizeKept⟩ := limits_of_exec first buf
  rw [maskInRange_withSlice, limitKept, sizeKept, bufLimit_withSlice, bufSize_withSlice, start]
  exact ⟨by omega, valid⟩

/-- Masking the two parts of a slice one after the other writes what masking the slice writes. -/
theorem bufMem_maskedState_parts {buf : Buf} {s : State} {a n1 n2 off : Word} {xs : List Byte} (ys : List Byte)
    (start : (a + n1).toNat = a.toNat + n1.toNat) (length : xs.length = n1.toNat) :
    bufMem buf (maskedState buf ys (withSlice (a + n1) n2 (off + n1) (maskedState buf xs (withSlice a n1 off s)))) =
      bufMem buf (maskedState buf (xs ++ ys) (withSlice a (n1 + n2) off s)) := by
  simp only [bufMem_maskedState, bufMem_withSlice, withSlice_mStart, withSlice_mOff, withSlice_key, maskedState_key,
    xorSlice_append, memWriteBytes_append, xorSlice_length, start, length]
  rw [xorSlice_congr _ _ _ ys (toNat_add_mod_four off n1)]

/-- The second part of a slice, still unmasked after the first is masked, is masked by the second command. -/
theorem exec_maskOf_second_part {buf : Buf} {s : State} {a n1 n2 off off' : Word} {xs ys : List Byte}
    (running : s.fault = 0) (masked : maskFlag s.frameH1 = true) (start : (a + n1).toNat = a.toNat + xs.length)
    (length : ys.length = n2.toNat) (holds : holdsAt (bufMem buf s) (a.toNat + xs.length) ys)
    (inRange : maskInRange buf (withSlice (a + n1) n2 off' (maskedState buf xs (withSlice a n1 off s)))) :
    exec (maskOf buf) (withSlice (a + n1) n2 off' (maskedState buf xs (withSlice a n1 off s))) =
      .next (maskedState buf ys (withSlice (a + n1) n2 off' (maskedState buf xs (withSlice a n1 off s)))) := by
  refine exec_maskOf_of_masked ?_ inRange ?_ length ?_
  · rwa [withSlice_fault, maskedState_fault, withSlice_fault]
  · rwa [withSlice_frameH1, maskedState_frameH1, withSlice_frameH1]
  · rw [bufMem_withSlice, withSlice_mStart, start]
    exact holdsAt_past_maskedState (by rwa [bufMem_withSlice])

/-- Settles O42: the second part stands where the first command wrote nothing, so both commands read their parts of the slice.
With MASKF clear no command writes. -/
theorem maskInTwoPartsIsMaskInOne : Obligations.MaskInTwoPartsIsMaskInOne := by
  intro buf s t a n1 n2 off running noWrap whole ok
  obtain ⟨-, inRange, completed⟩ := exec_maskOf_completed (s := withSlice a (n1 + n2) off s) whole ok
  obtain ⟨size, start, range1, range2⟩ := maskInRange_parts noWrap inRange
  obtain ⟨unmasked, rfl⟩ | ⟨masked, bs, length, holds, rfl⟩ := completed
  · have first := exec_maskOf_of_unmasked (s := withSlice a n1 off s) running range1 unmasked
    have inRange2 := range2 _ first
    refine ⟨_, _, first, exec_maskOf_of_unmasked (s := withSlice _ _ _ _) running inRange2 unmasked, running, ?_⟩
    simp only [bufMem_maskCommit, bufMem_withSlice]
  · obtain ⟨xs, ys, rfl, hx, hy⟩ := exists_append_of_length_eq_add (length.trans size)
    obtain ⟨holdsXs, holdsYs⟩ := (holdsAt_append _ _ xs ys).1 holds
    rw [bufMem_withSlice, withSlice_mStart] at holdsXs holdsYs
    have first : exec (maskOf buf) (withSlice a n1 off s) = .next (maskedState buf xs (withSlice a n1 off s)) :=
      exec_maskOf_of_masked running range1 masked hx (by rwa [bufMem_withSlice])
    have second := exec_maskOf_second_part running masked (by rw [start, hx]) hy holdsYs (range2 _ first)
    refine ⟨_, _, first, second, ?_, bufMem_maskedState_parts ys start hx⟩
    rwa [maskedState_fault, withSlice_fault, maskedState_fault, withSlice_fault]

/-- Settles O43: the two parts of the masked payload are what its two parts mask to, the second at the offset past the first;
that offset is taken modulo 2^64, which leaves its lane (R124). -/
theorem maskFollowsThePayloadPosition : Obligations.MaskFollowsThePayloadPosition := by
  intro b b1 b2 s u1 u2 xs ys running running1 running2 inRange inRange1 inRange2 size holds size1 holds1 off1 size2 holds2
    off2 key1 key2 flag1 flag2
  obtain ⟨t, whole, masked⟩ := exec_maskOf_of_holdsAt running inRange (by rw [size, List.length_append]) holds
  obtain ⟨v1, part1, masked1⟩ := exec_maskOf_of_holdsAt running1 inRange1 size1 holds1
  obtain ⟨v2, part2, masked2⟩ := exec_maskOf_of_holdsAt running2 inRange2 size2 holds2
  rw [maskBytes_append] at masked
  rw [flag1, key1, off1] at masked1
  rw [flag2, key2, off2, maskBytes_congr _ _ ys (toNat_add_ofNat_mod_four _ _)] at masked2
  exact ⟨t, v1, v2, _, _, whole, part1, part2, maskBytes_length .., maskBytes_length .., masked, masked1, masked2⟩

/-- Settles O44: neither sum loses its two low bits, and those of M_OFF are its remainder mod 4. -/
theorem maskLaneNeedsTwoLowBits : Obligations.MaskLaneNeedsTwoLowBits := by
  intro off i
  constructor
  · exact (toNat_add_ofNat_mod_four off i).symm
  · have low : (off.extractLsb' 0 2).toNat = off.toNat % 4 := BitVec.extractLsb'_toNat 0 2 off
    rw [low, lane, ← Nat.add_mod]

end Sys2Proof.Machine
end

section
/-! The internal primitives do all or nothing: APPEND (O37) and CONSUME (O38), whose unwritten form is O57. -/

namespace Sys2Proof.Machine

/-- Settles O37: inside the capacity APPEND is the choice between writing all its bytes and running short. -/
theorem appendWritesAllOrNothing : Obligations.AppendWritesAllOrNothing := by
  intro d w c s
  refine ⟨append_of_outside d s, fun inside fits => ?_, fun inside short => ?_⟩
  · have written : append d w c s = .ok (memWriteBytes d w s, w + s.length) := by
      rw [append_of_inside d s inside, if_pos fits]
    exact ⟨_, written, holdsAt_memWriteBytes d w s, sameOutside_memWriteBytes d w s.length s rfl⟩
  · rw [append_of_inside d s inside, if_neg (Nat.not_le.2 short)]

/-- Settles O38: a range that holds values holds some sequence of bytes, and CONSUME answers that sequence. -/
theorem consumeReadsAllOrNothing : Obligations.ConsumeReadsAllOrNothing := by
  intro k m r l
  refine ⟨consume_of_outside m, fun inside enough written => ?_, consume_of_short m⟩
  obtain ⟨bs, rfl, holds⟩ := holdsAt_of_written written
  exact ⟨bs, consume_of_holdsAt inside enough holds, rfl, holds⟩

end Sys2Proof.Machine
end

section
/-! How a write of CMD ends: the halt (O11), the reserved words (O10), the range conditions (O13), then the command's own
condition, in the order of R149 (O14). Last, ENCODE without room for its header (O24). -/

namespace Sys2Proof.Machine

/-! ### The checks before the command's own -/

/-- A step whose next action writes CMD is that write of CMD (R33). -/
theorem step_of_commandWord {s : State} {rest : List HostAction} {w : Byte}
    (next : s.actions = .set 0x00 w.toNat :: rest) : step s = commandWrite w { s with actions := rest } :=
  (step_of_action next).trans (hostSet_commandPort w _)

theorem commandWrite_of_legal {w : Byte} {i : Instr} (legal : decodeCommand w = .ok i) (s : State) :
    commandWrite w s = exec i s := by
  rw [commandWrite, legal]

/-- A halted block answers every word with its own state (R148): a legal one at its command's first check, a reserved one
before FAULT.ILLCMD is raised. -/
theorem commandWrite_of_halted {s : State} (w : Byte) (halt : s.fault ≠ 0) : commandWrite w s = .next s := by
  obtain ⟨i, legal, he⟩ | ⟨e, -, -, he⟩ | ⟨e, -, running, -⟩ := commandWrite_cases w s
  · rw [he]
    exact exec_of_halted (encode_of_decodeCommand legal).1 halt
  · exact he
  · exact absurd running halt

/-- The first fault of a running block is all that FAULT then holds (R146, R147). -/
theorem raiseFault_of_running (bit : Byte) {s : State} (running : s.fault = 0) :
    raiseFault bit s = { s with fault := bit } :=
  congrArg (fun fault => { s with fault := fault }) (raiseFault_fault_of_clear bit s running)

theorem commandWrite_of_reserved {s : State} {w : Byte} (running : s.fault = 0)
    (reserved : ∀ i, decodeCommand w ≠ .ok i) : commandWrite w s = .next { s with fault := faultIllCmd } := by
  obtain ⟨i, legal, -⟩ | ⟨e, -, halt, -⟩ | ⟨e, -, -, he⟩ := commandWrite_cases w s
  · exact absurd legal (reserved i)
  · exact absurd running halt
  · rw [he, raiseFault_of_running _ running]

/-- Settles O11. -/
theorem haltedBlockIgnoresEveryCommandWord : Obligations.HaltedBlockIgnoresEveryCommandWord :=
  fun s rest w next halt =>
    (step_of_commandWord next).trans (commandWrite_of_halted (s := { s with actions := rest }) w halt)

/-- A step that takes a reserved word in a running block sets FAULT.ILLCMD and changes nothing else (R147). -/
theorem step_of_reservedWord {s : State} {rest : List HostAction} {w : Byte} (next : s.actions = .set 0x00 w.toNat :: rest)
    (running : s.fault = 0) (reserved : ∀ i, decodeCommand w ≠ .ok i) :
    step s = .next { s with actions := rest, fault := faultIllCmd } :=
  (step_of_commandWord next).trans (commandWrite_of_reserved (s := { s with actions := rest }) running reserved)

/-- Settles O10: a word that is none of the four legal ones decodes to no command. -/
theorem reservedCommandWordSetsIllcmd : Obligations.ReservedCommandWordSetsIllcmd := by
  intro s rest w next running notEncode notDecode notMaskSrc notMaskDst
  refine step_of_reservedWord next running fun i legal => ?_
  obtain ⟨word, -⟩ | ⟨word, -⟩ | ⟨word, -⟩ | ⟨word, -⟩ := legalWord_of_decodeCommand legal
  · exact notEncode word
  · exact notDecode word
  · exact notMaskSrc word
  · exact notMaskDst word

/-! ### The range conditions -/

theorem exec_of_outOfRange {i : Instr} {s : State} (running : s.fault = 0) (fails : rangeFails i s) :
    exec i s = .next { s with fault := faultRange } := by
  rw [exec_of_rangeFails running fails, raiseFault_of_running _ running]

/-- RANGE is raised in the cases of the table only: no other way an instruction completes touches FAULT (R146). -/
theorem fault_clear_of_inRange {i : Instr} {s t : State} (running : s.fault = 0) (inRange : ¬ rangeFails i s)
    (h : exec i s = .next t) : t.fault = 0 := by
  cases completes_of_exec h with
  | outOfRange _ _ fails => exact absurd fails inRange
  | ignored | encodeShort | encoded | decodeShort | loaded => exact running
  | decoded b0 b1 len key => cases key <;> exact running
  | masked buf => cases buf <;> exact running

/-- Settles O13: RCUR = SRC_LEN is in range and leaves DECODE no byte, so it runs short. -/
theorem outOfRangeCommandSetsRangeAlone : Obligations.OutOfRangeCommandSetsRangeAlone := by
  refine ⟨fun s running fails => exec_of_outOfRange (i := .encode) running fails,
    fun s running fails => exec_of_outOfRange (i := .decode) running fails,
    fun s running fails => exec_of_outOfRange (i := .maskSrc) running fails,
    fun s running fails => exec_of_outOfRange (i := .maskDst) running fails,
    fun i s t running inRange h => fault_clear_of_inRange running inRange h,
    fun s running atEnd valid => ?_⟩
  have inRange : decodeInRange s := ⟨(congrArg BitVec.toNat atEnd).le, valid⟩
  have short : headerShort s := .inl (by rw [available, atEnd]; omega)
  exact ⟨_, execDecode_of_short running inRange short, rfl, running⟩

/-! ### The command's own condition -/

/-- DECODE in range answers by the bytes it has: fewer than 2, then fewer than byte 1 announces (R142). -/
theorem status_of_decode {s t : State} (running : s.fault = 0) (inRange : decodeInRange s) (h : exec .decode s = .next t) :
    t.status = if available s < 2 then statusInsufficientInput
      else if available s < hsize ((memRead s.src (s.rcur.toNat + 1)).getD 0) then statusInsufficientInput
      else statusOk := by
  have ends := (execDecode_of_running running inRange).symm.trans h
  match found : readHeader s.src s.rcur.toNat (available s) with
  | .error f => rw [found] at ends; cases ends
  | .ok .short =>
    rw [found] at ends
    cases ends
    obtain few | ⟨b0, b1, -, byte1, short⟩ := readHeader_short.1 found
    · rw [if_pos few]
      rfl
    · rw [byte1, Option.getD_some, if_pos short, ite_self]
      rfl
  | .ok (.header b0 b1 len key) =>
    rw [found] at ends
    cases ends
    obtain ⟨whole, -, byte1, -⟩ := readHeader_header.1 found
    have two := (hsize_pos b1).trans whole
    rw [byte1, Option.getD_some, if_neg two.not_gt, if_neg whole.not_gt]
    cases key <;> rfl

/-- ENCODE in range answers by the room for its header (R143). -/
theorem status_of_encode {s t : State} (running : s.fault = 0) (inRange : encodeInRange s) (h : exec .encode s = .next t) :
    t.status = if room s < hsize (encodedH1 s) then statusInsufficientOutputSpace else statusOk := by
  by_cases short : room s < hsize (encodedH1 s)
  · cases (execEncode_of_short running inRange short).symm.trans h
    exact (if_pos short).symm
  · cases (execEncode_of_fits running inRange (Nat.not_lt.1 short)).symm.trans h
    exact (if_neg short).symm

/-- MASK has no condition of its own: in range it answers OK (R120). -/
theorem status_of_maskOf {buf : Buf} {s t : State} (h : exec (maskOf buf) s = .next t) (clear : t.fault = 0) :
    t.status = statusOk := by
  obtain ⟨-, -, ⟨-, rfl⟩ | ⟨-, bs, -, -, rfl⟩⟩ := exec_maskOf_completed h clear <;> rfl

theorem rangeFails_actions (i : Instr) (s : State) (rest : List HostAction) :
    rangeFails i { s with actions := rest } = rangeFails i s := by
  cases i <;> rfl

/-- A write of a legal word in range leaves FAULT clear, and it is the run of the word's command. -/
theorem exec_of_step_inRange {s t : State} {rest : List HostAction} {w : Byte} {i : Instr}
    (next : s.actions = .set 0x00 w.toNat :: rest) (legal : decodeCommand w = .ok i) (running : s.fault = 0)
    (inRange : ¬ rangeFails i s) (h : step s = .next t) :
    exec i { s with actions := rest } = .next t ∧ t.fault = 0 := by
  rw [step_of_commandWord next, commandWrite_of_legal legal] at h
  rw [← rangeFails_actions i s rest] at inRange
  exact ⟨h, fault_clear_of_inRange (s := { s with actions := rest }) running inRange h⟩

/-- Settles O14: past the halt, the reserved words and the range condition, the status is the command's own. -/
theorem commandChecksComeInOrder : Obligations.CommandChecksComeInOrder := by
  intro s rest w next
  refine ⟨haltedBlockIgnoresEveryCommandWord s rest w next, step_of_reservedWord next, fun i running legal fails => ?_,
    fun t running word inRange h => ?_, fun t running word inRange h => ?_, fun t running word inRange h => ?_,
    fun t running word inRange h => ?_⟩
  · rw [← rangeFails_actions i s rest] at fails
    rw [step_of_commandWord next, commandWrite_of_legal legal]
    exact exec_of_outOfRange (s := { s with actions := rest }) running fails
  · subst word
    obtain ⟨ran, clear⟩ := exec_of_step_inRange (i := .decode) next rfl running inRange h
    rw [rangeFails_decode, not_not] at inRange
    exact ⟨clear, status_of_decode (s := { s with actions := rest }) running inRange ran⟩
  · subst word
    obtain ⟨ran, clear⟩ := exec_of_step_inRange (i := .encode) next rfl running inRange h
    rw [rangeFails_encode, not_not] at inRange
    exact ⟨clear, status_of_encode (s := { s with actions := rest }) running inRange ran⟩
  · subst word
    obtain ⟨ran, clear⟩ := exec_of_step_inRange (i := .maskSrc) next rfl running inRange h
    exact ⟨clear, status_of_maskOf (buf := .src) ran clear⟩
  · subst word
    obtain ⟨ran, clear⟩ := exec_of_step_inRange (i := .maskDst) next rfl running inRange h
    exact ⟨clear, status_of_maskOf (buf := .dst) ran clear⟩

/-! ### ENCODE without room -/

/-- Only ENCODE raises InsufficientOutputSpace (R143): every other way an instruction completes leaves STATUS, or sets it to
another code. -/
theorem status_ne_insufficientOutputSpace {i : Instr} {s t : State} (other : i ≠ .encode) (h : exec i s = .next t)
    (before : s.status ≠ statusInsufficientOutputSpace) : t.status ≠ statusInsufficientOutputSpace := by
  have ok : statusOk ≠ statusInsufficientOutputSpace := by decide
  have short : statusInsufficientInput ≠ statusInsufficientOutputSpace := by decide
  cases completes_of_exec h with
  | ignored | outOfRange | loaded => exact before
  | encodeShort | encoded => exact absurd rfl other
  | decodeShort => exact short
  | decoded b0 b1 len key => cases key <;> exact ok
  | masked => exact ok

/-- Settles O24: `encodeFail` is that state, with either draw. -/
theorem encodeShortOfSpaceWritesNothing : Obligations.EncodeShortOfSpaceWritesNothing :=
  ⟨fun s running below valid short =>
    ⟨_, execEncode_of_short running ⟨below, valid⟩ short, encodeFail_frameH1_eq s, rfl⟩,
   fun _ _ _ other h after => not_imp_not.1 (status_ne_insufficientOutputSpace other h) after⟩

end Sys2Proof.Machine
end

section
/-! Reset and waiting (O2, O3), and the retry of a command that ran short, once the host has met its duty: room for the same
frame (O26), bytes appended by FEED (O30). -/

namespace Sys2Proof.Machine

/-! ### Reset and waiting -/

/-- Every register reads after RESET as it reads in the reset state (R170). -/
theorem readReg_resetBlock (r : Reg) (s : State) : readReg r (resetBlock s) = readReg r State.reset := by
  cases r <;> rfl

/-- Settles O2: RESET leaves the registers and buffers of the reset state (O1), whatever the state it is taken in. -/
theorem resetActionRestoresTheResetState : Obligations.ResetActionRestoresTheResetState := by
  intro s rest next
  obtain ⟨registersZero, buffersEmpty⟩ := resetLeavesRegistersZeroAndBuffersEmpty
  exact ⟨resetBlock { s with actions := rest }, step_of_action next,
    fun r stored => (readReg_resetBlock r _).trans (registersZero r stored), buffersEmpty, rfl, rfl, rfl, rfl, rfl⟩

/-- Settles O3. -/
theorem waitingBlockStaysAsItIs : Obligations.WaitingBlockStaysAsItIs :=
  fun _ idle => step_of_no_action idle

/-! ### ENCODE, retried with room -/

/-- A failed ENCODE leaves the frame it was to encode: it may draw FRAME_H1[6:0], but keeps MASKF (R103). -/
theorem sameFrame_encodeFail (s : State) : sameFrame s (encodeFail s) := by
  refine ⟨rfl, ?_, rfl, rfl⟩
  obtain kept | filled := encodeFail_frameH1_eq s
  · rw [kept]
  · rw [filled, encodedH1, maskFlag_withLenInd]

theorem sameFrame_trans {s t u : State} (first : sameFrame s t) (second : sameFrame t u) : sameFrame s u := by
  obtain ⟨h0, flag, len, key⟩ := first
  obtain ⟨h0', flag', len', key'⟩ := second
  exact ⟨h0'.trans h0, flag'.trans flag, len'.trans len, key'.trans key⟩

/-- Of FRAME_H1, ENCODE's byte 1 carries MASKF alone (R102). -/
theorem encodedH1_of_sameFrame {s t : State} (same : sameFrame s t) : encodedH1 t = encodedH1 s := by
  obtain ⟨-, flag, len, -⟩ := same
  rw [encodedH1, encodedH1, withLenInd, withLenInd, flag, len]

/-- The header ENCODE writes is the frame's, whatever else the state holds (R101). -/
theorem encodedHeader_of_sameFrame {s t : State} (same : sameFrame s t) : encodedHeader t = encodedHeader s := by
  rw [encodedHeader, encodedHeader, encodedH1_of_sameFrame same]
  obtain ⟨h0, -, len, key⟩ := same
  rw [h0, len, key]

/-- Settles O26: the failed attempt and the host both keep the frame, so the retry has the first attempt's header to write. -/
theorem encodeRetryWritesTheSameHeader : Obligations.EncodeRetryWritesTheSameHeader := by
  intro s t u running h clear failed runningU keptFrame inRange fits
  obtain ⟨-, -, rfl⟩ := encode_failed running h clear failed
  have same : sameFrame s u := sameFrame_trans (sameFrame_encodeFail s) keptFrame
  have fitsU : hsize (encodedH1 u) ≤ room u := (encodedH1_of_sameFrame same).symm ▸ fits
  refine ⟨_, execEncode_of_fits runningU inRange fitsU, rfl, ?_⟩
  rw [encodedHeader_of_sameFrame same]
  exact holdsAt_memWriteBytes u.dst u.wcur.toNat (encodedHeader s)

/-! ### DECODE, retried after FEED -/

/-- However DECODE ends in range, it writes all the results a short DECODE wrote, and reads none of them (R105). -/
theorem decodeOutcome_decodeShort (found : Except Fault HeaderRead) (s : State) :
    decodeOutcome found (decodeShort s) = decodeOutcome found s := by
  match found with
  | .error _ => rfl
  | .ok .short => rfl
  | .ok (.header _ _ _ none) => rfl
  | .ok (.header _ _ _ (some _)) => rfl

/-- In range, a short DECODE before makes no difference to a DECODE. -/
theorem execDecode_decodeShort {s : State} (running : s.fault = 0) (inRange : decodeInRange s) :
    execDecode (decodeShort s) = execDecode s := by
  rw [execDecode_of_running running inRange, execDecode_of_running (s := decodeShort s) running inRange]
  exact decodeOutcome_decodeShort _ s

/-- FEED within the buffer raises SRC_LEN without a wrap (R95). -/
theorem fed_srcLen_toNat {bytes : List Byte} {s : State} (inside : s.srcLen.toNat + bytes.length ≤ s.srcMax.toNat) :
    (fed bytes s).srcLen.toNat = s.srcLen.toNat + bytes.length :=
  (BitVec.toNat_ofNat _ _).trans (Nat.mod_eq_of_lt (inside.trans_lt s.srcMax.isLt))

/-- FEED within the buffer meets the host's duty: it writes at SRC_LEN and above alone (R173). -/
theorem unreadTailKept_fed {bytes : List Byte} {s : State} (inside : s.srcLen.toNat + bytes.length ≤ s.srcMax.toNat) :
    unreadTailKept s (fed bytes s) := by
  refine ⟨rfl, ?_, fun a _ unread => ?_⟩
  · rw [fed_srcLen_toNat inside]
    exact Nat.le_add_right _ _
  · exact sameOutside_memWriteBytes s.src s.srcLen.toNat _ bytes rfl a (.inl unread)

/-- FEED within the buffer keeps DECODE in range (R146). -/
theorem decodeInRange_fed {bytes : List Byte} {s : State} (inRange : decodeInRange s)
    (inside : s.srcLen.toNat + bytes.length ≤ s.srcMax.toNat) : decodeInRange (fed bytes s) := by
  have raised := fed_srcLen_toNat inside
  exact ⟨inRange.1.trans (raised ▸ Nat.le_add_right _ _), raised.trans_le inside⟩

/-- Settles O30: the first attempt left only results, which FEED does not touch and the retry writes anew. -/
theorem decodeRetryAfterFeedIsExact : Obligations.DecodeRetryAfterFeedIsExact := by
  intro s t bytes running h clear failed inside
  obtain ⟨inRange, -, rfl⟩ := decode_failed running h clear failed
  have fedAfter : fed bytes (decodeShort s) = decodeShort (fed bytes s) := rfl
  rw [fedAfter]
  exact ⟨unreadTailKept_fed inside, execDecode_decodeShort (s := fed bytes s) running (decodeInRange_fed inRange inside)⟩

end Sys2Proof.Machine
end
